-- ==== Sys2Proof/Word.lean ====
section
/-! DEFINITION. The word types of the block: bytes, 16-bit arguments and 32-bit pixel coordinates
(spec/00_scope.md R9, R11). All values are unsigned. -/

namespace Sys2Proof

/-- One opcode byte, data byte or plane byte. -/
abbrev Byte := BitVec 8

/-- A `u16` argument: `rows`, `cols`, the gate count, the Y bounds, a length field, a plane index (R9). -/
abbrev Half := BitVec 16

/-- The coordinate field of a pixel operand: a `u32` of the request (spec/30_encoding.md R110). The coordinate it stands
for is `COORD_W` bits wide (R8, `coordOf` in Machine/Operands.lean). -/
abbrev Coord := BitVec 32

/-- The transport's error type `E` (spec/10_state.md R52), a parameter of the model: any natural. DESIGN CHOICE, log 6. -/
abbrev TransportError := Nat

end Sys2Proof
end

