-- ==== Sys2Proof/Config.lean ====
section
/-! DEFINITION. The implementation parameters of spec/00_scope.md R8 with their defaults, and the free values:
everything the spec leaves to a draw or leaves OPEN is an opaque constant, so that no proof can see its value. -/

namespace Sys2Proof

/-! ### Free values -/

/-- `UPDATE_SETTLE_MS`, left OPEN (R8, spec/92_eei_decisions.md D6). Log 10. -/
opaque Config.updateSettleMs : Nat

/-- The power-on draw of byte `i` of plane BLACK (spec/10_state.md R39, D22). Log 8. -/
opaque Config.powerOnBlack : Nat → Byte

/-- The power-on draw of byte `i` of plane RED (spec/10_state.md R39, D22). Log 8. -/
opaque Config.powerOnRed : Nat → Byte

/-- The power-on level of the busy input, a draw (spec/70_reset_and_hazards.md R330). Log 7. -/
opaque Config.powerOnBusy : Bool

/-- The coordinate that a `u32` field stands for when its value does not fit in a narrower `COORD_W`: the spec states
none (R8, spec/30_encoding.md R110). Arguments: `COORD_W` and the field's value. Log 11. -/
opaque Config.wideCoord : Nat → Nat → Nat

/-- The result of send number `n` past the planned ones: none is OK (spec/10_state.md R52). Log 5. -/
opaque Config.sendDraw : Nat → Option TransportError

/-- The busy level seen by poll number `n` past the planned ones (spec/10_state.md R51). Log 7. -/
opaque Config.busyDraw : Nat → Bool

/-! ### Parameters -/

/-- The parameter table `OPC`, one opcode byte per wire command (spec/30_encoding.md R104).
The defaults are the table's; the spec marks them general knowledge (G2). Log 9. -/
structure Opc where
  driverOutputControl   : Byte := 0x01
  gateDrivingVoltage    : Byte := 0x03
  sourceDrivingVoltage  : Byte := 0x04
  boosterEnable         : Byte := 0x0C
  gateScanStartPosition : Byte := 0x0F
  deepSleepMode         : Byte := 0x10
  dataEntryMode         : Byte := 0x11
  softReset             : Byte := 0x12
  updateDisplay         : Byte := 0x20
  updateDisplayOption2  : Byte := 0x22
  writeBlackData        : Byte := 0x24
  writeRedData          : Byte := 0x26
  writeVcom             : Byte := 0x2C
  writeLut              : Byte := 0x32
  dummyLinePeriod       : Byte := 0x3A
  gateLineWidth         : Byte := 0x3B
  borderWaveform        : Byte := 0x3C
  startEndXPosition     : Byte := 0x44
  startEndYPosition     : Byte := 0x45
  xAddress              : Byte := 0x4E
  yAddress              : Byte := 0x4F
  analogBlockControl    : Byte := 0x74
  digitalBlockControl   : Byte := 0x7E
  deriving DecidableEq, Repr

/-- The parameter `SLEEP_CODE`: the data byte of each deep-sleep mode (R8, R105). Log 9. -/
structure SleepCode where
  normal      : Byte := 0x00
  preserveRam : Byte := 0x01
  discardRam  : Byte := 0x03
  deriving DecidableEq, Repr

/-- The implementation parameters of R8, all of them, with the defaults the spec assumes (log 9, 11). No rule of the block
reads the last two: they belong to the transport's view (Safety.lean). -/
structure Params where
  maxGateOutputs     : Nat := 296
  maxSourceOutputs   : Nat := 160
  lutLen             : Nat := 70
  lutStrict          : Bool := true
  maxDummyLinePeriod : Nat := 127
  opc                : Opc := {}
  analogBlockValue   : Byte := 0x54
  digitalBlockValue  : Byte := 0x3B
  driverScan         : Byte := 0x00
  updateOption2Value : Byte := 0xC7
  updateSettleMs     : Nat := Config.updateSettleMs
  sleepCode          : SleepCode := {}
  initGateVoltage    : Option Byte := none
  initSourceVoltage  : Option (Byte × Byte × Byte) := none
  initBorder         : Option Byte := none
  admitGkExtra       : Bool := false
  coordW             : Nat := 32
  busyActiveHigh     : Bool := true
  transportChunk     : Nat := 4096
  deriving DecidableEq, Repr

/-- The parameters at their defaults (R8). -/
def Params.standard : Params := {}

end Sys2Proof
end

