-- ==== Sys2Proof/Syntax.lean ====
section
/-! DEFINITION. The instruction syntax at its two levels (spec/00_scope.md R3): the wire commands the Command
Encoder emits and the host requests the block accepts. One constructor of `Instr` per row of spec/opcode_table.json. -/

namespace Sys2Proof

/-- The three colours (spec/10_state.md R38). -/
inductive Color where
  | black | white | red
  deriving DecidableEq, Repr

/-- The two planes (spec/10_state.md R39). -/
inductive Plane where
  | black | red
  deriving DecidableEq, Repr

/-- The deep-sleep modes, a closed set (spec/40_commands.md R147). -/
inductive SleepMode where
  | normal | preserveRam | discardRam
  deriving DecidableEq, Repr

/-- The data-entry modes (spec/10_state.md R37). -/
inductive EntryMode where
  | decrementXDecrementY | incrementXDecrementY | decrementXIncrementY | incrementYIncrementX
  deriving DecidableEq, Repr

/-- The increment axis (spec/10_state.md R37). -/
inductive Axis where
  | horizontal | vertical
  deriving DecidableEq, Repr

/-- One pixel assignment (x, y, colour) of SET_PIXEL and DRAW_PIXELS (spec/42_framebuffer.md R240, R242). -/
structure Pixel where
  x     : Coord
  y     : Coord
  color : Color
  deriving DecidableEq, Repr

/-- The names of the wire commands, the rows of spec/30_encoding.md R104, in the table's order. -/
inductive CmdKind where
  | driverOutputControl | gateDrivingVoltage | sourceDrivingVoltage | boosterEnable | gateScanStartPosition
  | deepSleepMode | dataEntryMode | softReset | updateDisplay | updateDisplayOption2
  | writeBlackData | writeRedData | writeVcom | writeLut
  | dummyLinePeriod | gateLineWidth | borderWaveform | startEndXPosition | startEndYPosition
  | xAddress | yAddress | analogBlockControl | digitalBlockControl
  deriving DecidableEq, Repr

/-- `Command`: the logical commands with fixed-size arguments (spec/40_commands.md R140), the two GK extras among them. -/
inductive Command where
  | driverOutputControl (gateLines : Half) (scan : Byte)
  | gateDrivingVoltage (v : Byte)
  | sourceDrivingVoltage (vsh1 vsh2 vsl : Byte)
  | boosterEnable (p1 p2 p3 dur : Byte)
  | gateScanStartPosition (pos : Half)
  | deepSleepMode (mode : SleepMode)
  | dataEntryMode (mode : EntryMode) (axis : Axis)
  | softReset
  | updateDisplay
  | updateDisplayOption2 (v : Byte)
  | writeVcom (v : Byte)
  | dummyLinePeriod (v : Byte)
  | gateLineWidth (v : Byte)
  | borderWaveform (v : Byte)
  | startEndXPosition (first last : Byte)
  | startEndYPosition (first last : Half)
  | xAddress (a : Byte)
  | yAddress (a : Half)
  | analogBlockControl (v : Byte)
  | digitalBlockControl (v : Byte)
  deriving DecidableEq, Repr

/-- `BufCommand`: the logical commands that carry a byte buffer (spec/40_commands.md R140). -/
inductive BufCommand where
  | writeBlackData (buf : List Byte)
  | writeRedData (buf : List Byte)
  | writeLut (buf : List Byte)
  deriving DecidableEq, Repr

/-- Any logical command: what `encode_and_send` takes (spec/40_commands.md R141). -/
inductive WireCmd where
  | fixed (c : Command)
  | buffer (c : BufCommand)
  deriving DecidableEq, Repr

/-- The instructions. The first 23 constructors are the wire commands, in the order of the table: each is one
`encode_and_send` (R141), which the block runs as a step of a request. The last 13 are the host requests (R110). -/
inductive Instr where
  -- wire commands, spec/40_commands.md R142 to R164
  | driverOutputControl (gateLines : Half) (scan : Byte)
  | gateDrivingVoltage (v : Byte)
  | sourceDrivingVoltage (vsh1 vsh2 vsl : Byte)
  | boosterEnable (p1 p2 p3 dur : Byte)
  | gateScanStartPosition (pos : Half)
  | deepSleepMode (mode : SleepMode)
  | dataEntryMode (mode : EntryMode) (axis : Axis)
  | softReset
  | updateDisplay
  | updateDisplayOption2 (v : Byte)
  | writeBlackData (buf : List Byte)
  | writeRedData (buf : List Byte)
  | writeVcom (v : Byte)
  | writeLut (buf : List Byte)
  | dummyLinePeriod (v : Byte)
  | gateLineWidth (v : Byte)
  | borderWaveform (v : Byte)
  | startEndXPosition (first last : Byte)
  | startEndYPosition (first last : Half)
  | xAddress (a : Byte)
  | yAddress (a : Half)
  | analogBlockControl (v : Byte)
  | digitalBlockControl (v : Byte)
  -- host requests, spec/41_sequencer.md and spec/42_framebuffer.md
  | reset
  | update (black red : List Byte)
  | deepSleep
  | status
  | exec (c : Command)
  | execBuf (c : BufCommand)
  | wait
  | clear (color : Color)
  | setPixel (x y : Coord) (color : Color)
  | drawPixels (pixels : List Pixel)
  | gfxUpdate
  | planeWrite (plane : Plane) (index : Half) (value : Byte)
  | planeRead (plane : Plane) (index : Half)
  deriving DecidableEq, Repr

/-- The wire instruction of a fixed-argument command. -/
def Command.toInstr : Command → Instr
  | .driverOutputControl g s => .driverOutputControl g s
  | .gateDrivingVoltage v => .gateDrivingVoltage v
  | .sourceDrivingVoltage a b c => .sourceDrivingVoltage a b c
  | .boosterEnable a b c d => .boosterEnable a b c d
  | .gateScanStartPosition p => .gateScanStartPosition p
  | .deepSleepMode m => .deepSleepMode m
  | .dataEntryMode m a => .dataEntryMode m a
  | .softReset => .softReset
  | .updateDisplay => .updateDisplay
  | .updateDisplayOption2 v => .updateDisplayOption2 v
  | .writeVcom v => .writeVcom v
  | .dummyLinePeriod v => .dummyLinePeriod v
  | .gateLineWidth v => .gateLineWidth v
  | .borderWaveform v => .borderWaveform v
  | .startEndXPosition a b => .startEndXPosition a b
  | .startEndYPosition a b => .startEndYPosition a b
  | .xAddress a => .xAddress a
  | .yAddress a => .yAddress a
  | .analogBlockControl v => .analogBlockControl v
  | .digitalBlockControl v => .digitalBlockControl v

/-- The wire instruction of a buffer command. -/
def BufCommand.toInstr : BufCommand → Instr
  | .writeBlackData b => .writeBlackData b
  | .writeRedData b => .writeRedData b
  | .writeLut b => .writeLut b

/-- The wire instruction of a logical command. -/
def WireCmd.toInstr : WireCmd → Instr
  | .fixed c => c.toInstr
  | .buffer c => c.toInstr

/-- Whether an instruction is a host request, the level the block decodes (spec/30_encoding.md R100). -/
def Instr.isRequest : Instr → Bool
  | .driverOutputControl _ _ | .gateDrivingVoltage _ | .sourceDrivingVoltage _ _ _ | .boosterEnable _ _ _ _
  | .gateScanStartPosition _ | .deepSleepMode _ | .dataEntryMode _ _ | .softReset | .updateDisplay
  | .updateDisplayOption2 _ | .writeBlackData _ | .writeRedData _ | .writeVcom _ | .writeLut _ | .dummyLinePeriod _
  | .gateLineWidth _ | .borderWaveform _ | .startEndXPosition _ _ | .startEndYPosition _ _ | .xAddress _
  | .yAddress _ | .analogBlockControl _ | .digitalBlockControl _ => false
  | .reset | .update _ _ | .deepSleep | .status | .exec _ | .execBuf _ | .wait | .clear _ | .setPixel _ _ _
  | .drawPixels _ | .gfxUpdate | .planeWrite _ _ _ | .planeRead _ _ => true

end Sys2Proof
end

