-- ==== Sys2Proof/WellFormed.lean ====
section
/-! DEFINITION. Well-formed instructions: every length that travels in a 16-bit length field of the request
encoding fits there (spec/30_encoding.md R110, R113; spec/42_framebuffer.md R242 "n < 2^16"). Every other
operand is legal by its type; argument ranges are run-time faults (R106), not well-formedness. -/

namespace Sys2Proof

/-- A list whose length fits a `u16` length field (R110). -/
def fitsLength {α : Type} (l : List α) : Bool := decide (l.length < 65536)

/-- The buffer a buffer command carries. -/
def BufCommand.buf : BufCommand → List Byte
  | .writeBlackData b => b
  | .writeRedData b => b
  | .writeLut b => b

/-- The well-formedness check, one case per constructor. -/
def Instr.wellFormed : Instr → Bool
  | .driverOutputControl _ _ => true
  | .gateDrivingVoltage _ => true
  | .sourceDrivingVoltage _ _ _ => true
  | .boosterEnable _ _ _ _ => true
  | .gateScanStartPosition _ => true
  | .deepSleepMode _ => true
  | .dataEntryMode _ _ => true
  | .softReset => true
  | .updateDisplay => true
  | .updateDisplayOption2 _ => true
  | .writeBlackData _ => true
  | .writeRedData _ => true
  | .writeVcom _ => true
  | .writeLut _ => true
  | .dummyLinePeriod _ => true
  | .gateLineWidth _ => true
  | .borderWaveform _ => true
  | .startEndXPosition _ _ => true
  | .startEndYPosition _ _ => true
  | .xAddress _ => true
  | .yAddress _ => true
  | .analogBlockControl _ => true
  | .digitalBlockControl _ => true
  | .reset => true
  | .update black red => fitsLength black && fitsLength red
  | .deepSleep => true
  | .status => true
  | .exec _ => true
  | .execBuf c => fitsLength c.buf
  | .wait => true
  | .clear _ => true
  | .setPixel _ _ _ => true
  | .drawPixels pixels => fitsLength pixels
  | .gfxUpdate => true
  | .planeWrite _ _ _ => true
  | .planeRead _ _ => true

end Sys2Proof
end

