-- ==== Sys2Proof/Decode.lean ====
section
/-! DEFINITION. The encodings (spec/30_encoding.md): byte order, the wire opcode map (R104), the decoder of host
requests (R110 to R113, R122), total on any bytes and rejecting by name, the decoder of a wire frame, and the
encoder of both levels. The block decodes only host requests (R100); the frame decoder is what EXEC uses (R111). -/

namespace Sys2Proof

/-! ### Byte order (spec/20_memory.md R71, spec/30_encoding.md R103) -/

/-- `lo8(v) = v[7:0]` (spec/00_scope.md R11). -/
def lo8 (v : Half) : Byte := BitVec.ofNat 8 v.toNat

/-- `hi8(v) = v[15:8]` (R11). -/
def hi8 (v : Half) : Byte := BitVec.ofNat 8 (v.toNat / 256)

/-- A `u16` from its two bytes, low byte first: `d_lo | (d_hi << 8)` (R111). -/
def le16 (lo hi : Byte) : Half := BitVec.ofNat 16 (lo.toNat + 256 * hi.toNat)

/-- A `u32` from its four bytes, low byte first (R110). -/
def le32 (b0 b1 b2 b3 : Byte) : Coord :=
  BitVec.ofNat 32 (b0.toNat + 256 * (b1.toNat + 256 * (b2.toNat + 256 * b3.toNat)))

/-- The two bytes of a `u16`, low byte first (R71). -/
def bytes16 (v : Half) : List Byte := [lo8 v, hi8 v]

/-- The four bytes of a `u32`, low byte first (R110). -/
def bytes32 (v : Coord) : List Byte :=
  [BitVec.ofNat 8 v.toNat, BitVec.ofNat 8 (v.toNat / 256), BitVec.ofNat 8 (v.toNat / 65536),
   BitVec.ofNat 8 (v.toNat / 16777216)]

/-! ### The wire opcode map (R102, R104) -/

/-- The frame formats (R102). -/
inductive Format where
  | f0 | f1 | f2 | f3 | f4 | fb
  deriving DecidableEq, Repr

/-- The fixed number of data bytes of a format; a buffer format has none of its own (R102). -/
def Format.count : Format → Option Nat
  | .f0 => some 0
  | .f1 => some 1
  | .f2 => some 2
  | .f3 => some 3
  | .f4 => some 4
  | .fb => none

/-- The format column of R104. -/
def CmdKind.format : CmdKind → Format
  | .driverOutputControl => .f3
  | .gateDrivingVoltage => .f1
  | .sourceDrivingVoltage => .f3
  | .boosterEnable => .f4
  | .gateScanStartPosition => .f2
  | .deepSleepMode => .f1
  | .dataEntryMode => .f1
  | .softReset => .f0
  | .updateDisplay => .f0
  | .updateDisplayOption2 => .f1
  | .writeBlackData => .fb
  | .writeRedData => .fb
  | .writeVcom => .f1
  | .writeLut => .fb
  | .dummyLinePeriod => .f1
  | .gateLineWidth => .f1
  | .borderWaveform => .f1
  | .startEndXPosition => .f2
  | .startEndYPosition => .f4
  | .xAddress => .f1
  | .yAddress => .f2
  | .analogBlockControl => .f1
  | .digitalBlockControl => .f1

/-- The opcode column of R104, through the parameter `OPC`. -/
def Opc.byte (o : Opc) : CmdKind → Byte
  | .driverOutputControl => o.driverOutputControl
  | .gateDrivingVoltage => o.gateDrivingVoltage
  | .sourceDrivingVoltage => o.sourceDrivingVoltage
  | .boosterEnable => o.boosterEnable
  | .gateScanStartPosition => o.gateScanStartPosition
  | .deepSleepMode => o.deepSleepMode
  | .dataEntryMode => o.dataEntryMode
  | .softReset => o.softReset
  | .updateDisplay => o.updateDisplay
  | .updateDisplayOption2 => o.updateDisplayOption2
  | .writeBlackData => o.writeBlackData
  | .writeRedData => o.writeRedData
  | .writeVcom => o.writeVcom
  | .writeLut => o.writeLut
  | .dummyLinePeriod => o.dummyLinePeriod
  | .gateLineWidth => o.gateLineWidth
  | .borderWaveform => o.borderWaveform
  | .startEndXPosition => o.startEndXPosition
  | .startEndYPosition => o.startEndYPosition
  | .xAddress => o.xAddress
  | .yAddress => o.yAddress
  | .analogBlockControl => o.analogBlockControl
  | .digitalBlockControl => o.digitalBlockControl

/-- Every row of R104, in the table's order. -/
def CmdKind.all : List CmdKind :=
  [.driverOutputControl, .gateDrivingVoltage, .sourceDrivingVoltage, .boosterEnable, .gateScanStartPosition,
   .deepSleepMode, .dataEntryMode, .softReset, .updateDisplay, .updateDisplayOption2, .writeBlackData, .writeRedData,
   .writeVcom, .writeLut, .dummyLinePeriod, .gateLineWidth, .borderWaveform, .startEndXPosition, .startEndYPosition,
   .xAddress, .yAddress, .analogBlockControl, .digitalBlockControl]

/-- The row of R104 an opcode byte selects: the first in the table's order. DESIGN CHOICE for an overridden
`OPC` that repeats a byte (R104 says every opcode is distinct), log 30. -/
def Opc.kindOf (o : Opc) (b : Byte) : Option CmdKind := CmdKind.all.find? (fun k => o.byte k == b)

/-- "Every opcode is distinct" (R104), for a parameter table. -/
def Opc.distinct (o : Opc) : Bool := decide (CmdKind.all.map o.byte).Nodup

/-- The sleep codes are pairwise distinct, so that R111's inverse of `SLEEP_CODE` is a function. -/
def SleepCode.distinct (c : SleepCode) : Bool :=
  decide (c.normal ≠ c.preserveRam) && decide (c.normal ≠ c.discardRam) && decide (c.preserveRam ≠ c.discardRam)

/-- `SLEEP_CODE(mode)` (R105). -/
def SleepCode.byte (c : SleepCode) : SleepMode → Byte
  | .normal => c.normal
  | .preserveRam => c.preserveRam
  | .discardRam => c.discardRam

/-- The mode a DeepSleepMode byte stands for; any other byte is illegal (R111). When an overridden `SLEEP_CODE` gives two
modes one byte, the first of Normal, PreserveRAM, DiscardRAM is taken: the spec neither requires distinct codes nor says
which mode such a byte decodes to. DESIGN CHOICE, log 31. -/
def SleepCode.modeOf (c : SleepCode) (b : Byte) : Option SleepMode :=
  if b = c.normal then some .normal
  else if b = c.preserveRam then some .preserveRam
  else if b = c.discardRam then some .discardRam
  else none

/-- The two mode bits of a data-entry byte (spec/10_state.md R37). -/
def EntryMode.code : EntryMode → Nat
  | .decrementXDecrementY => 0
  | .incrementXDecrementY => 1
  | .decrementXIncrementY => 2
  | .incrementYIncrementX => 3

/-- The axis bit of a data-entry byte (R37). -/
def Axis.code : Axis → Nat
  | .horizontal => 0
  | .vertical => 1

/-- The DataEntryMode byte `(axis_code << 2) | mode_code` (R105); the fields do not overlap, so it is their sum. -/
def entryByte (m : EntryMode) (a : Axis) : Byte := BitVec.ofNat 8 (4 * a.code + m.code)

/-- The fields of a DataEntryMode byte; a byte with any of bits 7 to 3 set is illegal (R111). -/
def entryOf (b : Byte) : Option (EntryMode × Axis) :=
  if b.toNat < 8 then
    some (match b.toNat % 4 with
          | 0 => .decrementXDecrementY
          | 1 => .incrementXDecrementY
          | 2 => .decrementXIncrementY
          | _ => .incrementYIncrementX,
          if b.toNat / 4 = 0 then .horizontal else .vertical)
  else none

/-! ### Decoding -/

/-- Why the decoder rejects a byte string. Each is an illegal request (R111, R113, R122); the machine answers it
with `Fault(ILLEGAL_REQUEST, bytes)`. Safe: the spec names the outcome. -/
inductive DecodeError where
  /-- The byte string ends before its length fields say it does (R113). -/
  | truncated
  /-- A request code not in R110. -/
  | unknownCode
  /-- A colour byte other than 0, 1 or 2 (R122). -/
  | badColor
  /-- A plane byte other than 0 or 1 (R122). -/
  | badPlane
  /-- An EXEC opcode that is no F0 to F4 row of R104 (R111). -/
  | badOpcode
  /-- An EXEC_BUF opcode outside the three buffer commands (R122). -/
  | badBufOpcode
  /-- A DeepSleepMode byte that is no SLEEP_CODE value (R111). -/
  | badSleepCode
  /-- A DataEntryMode byte with any of bits 7 to 3 set (R111). -/
  | badEntryMode
  deriving DecidableEq, Repr

/-- Read one byte. -/
def take8 : List Byte → Except DecodeError (Byte × List Byte)
  | a :: r => .ok (a, r)
  | [] => .error .truncated

/-- Read a `u16`, low byte first. -/
def take16 : List Byte → Except DecodeError (Half × List Byte)
  | a :: b :: r => .ok (le16 a b, r)
  | _ => .error .truncated

/-- Read a `u32`, low byte first. -/
def take32 : List Byte → Except DecodeError (Coord × List Byte)
  | a :: b :: c :: d :: r => .ok (le32 a b c d, r)
  | _ => .error .truncated

/-- Read `n` bytes. -/
def takeBytes (n : Nat) (l : List Byte) : Except DecodeError (List Byte × List Byte) :=
  if l.length < n then .error .truncated else .ok (l.take n, l.drop n)

/-- Read a `u16` length and then that many bytes. -/
def takeBuffer (l : List Byte) : Except DecodeError (List Byte × List Byte) :=
  match take16 l with
  | .error e => .error e
  | .ok (n, r) => takeBytes n.toNat r

/-- The colour codes BLACK = 0, WHITE = 1, RED = 2 (spec/10_state.md R38). -/
def colorOf (b : Byte) : Except DecodeError Color :=
  if b = 0 then .ok .black else if b = 1 then .ok .white else if b = 2 then .ok .red else .error .badColor

/-- The plane codes BLACK = 0, RED = 1 (R110). -/
def planeOf (b : Byte) : Except DecodeError Plane :=
  if b = 0 then .ok .black else if b = 1 then .ok .red else .error .badPlane

/-- Read one pixel record: `x` (u32), `y` (u32), `color` (u8) (R110). -/
def takePixel (l : List Byte) : Except DecodeError (Pixel × List Byte) :=
  match take32 l with
  | .error e => .error e
  | .ok (x, r) =>
    match take32 r with
    | .error e => .error e
    | .ok (y, r) =>
      match r with
      | [] => .error .truncated
      | c :: r =>
        match colorOf c with
        | .error e => .error e
        | .ok c => .ok ({ x := x, y := y, color := c }, r)

/-- Read `n` pixel records (R110); all are decoded before any is applied (spec/42_framebuffer.md R242). -/
def takePixels : Nat → List Byte → Except DecodeError (List Pixel × List Byte)
  | 0, l => .ok ([], l)
  | n + 1, l =>
    match takePixel l with
    | .error e => .error e
    | .ok (px, r) =>
      match takePixels n r with
      | .error e => .error e
      | .ok (pxs, r) => .ok (px :: pxs, r)

/-- Read the data bytes of a one-byte command. -/
def takeF1 (f : Byte → Command) : List Byte → Except DecodeError (Command × List Byte)
  | a :: r => .ok (f a, r)
  | [] => .error .truncated

/-- The command a row of R104 and its data bytes stand for, and the bytes after them: R105 inverted (R111).
A buffer row is no fixed-format row. -/
def takeCommand (p : Params) (k : CmdKind) (l : List Byte) : Except DecodeError (Command × List Byte) :=
  match k with
  | .driverOutputControl =>
    match l with
    | a :: b :: s :: r => .ok (.driverOutputControl (le16 a b) s, r)
    | _ => .error .truncated
  | .gateDrivingVoltage => takeF1 .gateDrivingVoltage l
  | .sourceDrivingVoltage =>
    match l with
    | a :: b :: c :: r => .ok (.sourceDrivingVoltage a b c, r)
    | _ => .error .truncated
  | .boosterEnable =>
    match l with
    | a :: b :: c :: d :: r => .ok (.boosterEnable a b c d, r)
    | _ => .error .truncated
  | .gateScanStartPosition =>
    match l with
    | a :: b :: r => .ok (.gateScanStartPosition (le16 a b), r)
    | _ => .error .truncated
  | .deepSleepMode =>
    match l with
    | [] => .error .truncated
    | a :: r =>
      match p.sleepCode.modeOf a with
      | some m => .ok (.deepSleepMode m, r)
      | none => .error .badSleepCode
  | .dataEntryMode =>
    match l with
    | [] => .error .truncated
    | a :: r =>
      match entryOf a with
      | some (m, x) => .ok (.dataEntryMode m x, r)
      | none => .error .badEntryMode
  | .softReset => .ok (.softReset, l)
  | .updateDisplay => .ok (.updateDisplay, l)
  | .updateDisplayOption2 => takeF1 .updateDisplayOption2 l
  | .writeBlackData => .error .badOpcode
  | .writeRedData => .error .badOpcode
  | .writeVcom => takeF1 .writeVcom l
  | .writeLut => .error .badOpcode
  | .dummyLinePeriod => takeF1 .dummyLinePeriod l
  | .gateLineWidth => takeF1 .gateLineWidth l
  | .borderWaveform => takeF1 .borderWaveform l
  | .startEndXPosition =>
    match l with
    | a :: b :: r => .ok (.startEndXPosition a b, r)
    | _ => .error .truncated
  | .startEndYPosition =>
    match l with
    | a :: b :: c :: d :: r => .ok (.startEndYPosition (le16 a b) (le16 c d), r)
    | _ => .error .truncated
  | .xAddress => takeF1 .xAddress l
  | .yAddress =>
    match l with
    | a :: b :: r => .ok (.yAddress (le16 a b), r)
    | _ => .error .truncated
  | .analogBlockControl => takeF1 .analogBlockControl l
  | .digitalBlockControl => takeF1 .digitalBlockControl l

/-- The buffer command a row of R104 and its buffer stand for; only the three FB rows have one (R102, R110). -/
def bufCommandOf (k : CmdKind) (buf : List Byte) : Option BufCommand :=
  match k with
  | .writeBlackData => some (.writeBlackData buf)
  | .writeRedData => some (.writeRedData buf)
  | .writeLut => some (.writeLut buf)
  | .driverOutputControl | .gateDrivingVoltage | .sourceDrivingVoltage | .boosterEnable | .gateScanStartPosition
  | .deepSleepMode | .dataEntryMode | .softReset | .updateDisplay | .updateDisplayOption2 | .writeVcom
  | .dummyLinePeriod | .gateLineWidth | .borderWaveform | .startEndXPosition | .startEndYPosition
  | .xAddress | .yAddress | .analogBlockControl | .digitalBlockControl => none

/-- The operands of EXEC: `op`, then exactly the fixed data bytes of `op` (R110, R111). -/
def takeExec (p : Params) (l : List Byte) : Except DecodeError (Command × List Byte) :=
  match l with
  | [] => .error .truncated
  | op :: r =>
    match p.opc.kindOf op with
    | none => .error .badOpcode
    | some k => takeCommand p k r

/-- The operands of EXEC_BUF: `op`, a `u16` length and that many bytes (R110). -/
def takeExecBuf (p : Params) (l : List Byte) : Except DecodeError (BufCommand × List Byte) :=
  match l with
  | [] => .error .truncated
  | op :: r =>
    match p.opc.kindOf op with
    | none => .error .badBufOpcode
    | some k =>
      match bufCommandOf k [] with
      | none => .error .badBufOpcode
      | some _ =>
        match takeBuffer r with
        | .error e => .error e
        | .ok (buf, r) =>
          match bufCommandOf k buf with
          | none => .error .badBufOpcode
          | some c => .ok (c, r)

/-- The host requests of R110. -/
inductive ReqKind where
  | reset | update | deepSleep | status | exec | execBuf | wait
  | clear | setPixel | drawPixels | gfxUpdate | planeWrite | planeRead
  deriving DecidableEq, Repr

/-- The request codes of R110. -/
def ReqKind.code : ReqKind → Byte
  | .reset => 0x01
  | .update => 0x02
  | .deepSleep => 0x03
  | .status => 0x04
  | .exec => 0x08
  | .execBuf => 0x09
  | .wait => 0x0A
  | .clear => 0x10
  | .setPixel => 0x11
  | .drawPixels => 0x12
  | .gfxUpdate => 0x13
  | .planeWrite => 0x14
  | .planeRead => 0x15

/-- Every row of R110. -/
def ReqKind.all : List ReqKind :=
  [.reset, .update, .deepSleep, .status, .exec, .execBuf, .wait, .clear, .setPixel, .drawPixels, .gfxUpdate,
   .planeWrite, .planeRead]

/-- The request a code byte stands for, if any. -/
def ReqKind.ofCode (b : Byte) : Option ReqKind := ReqKind.all.find? (fun k => k.code == b)

/-- The operands of a request, and the bytes after them (R110, R113). -/
def takeRequest (p : Params) (k : ReqKind) (l : List Byte) : Except DecodeError (Instr × List Byte) :=
  match k with
  | .reset => .ok (.reset, l)
  | .update =>
    match takeBuffer l with
    | .error e => .error e
    | .ok (black, r) =>
      match takeBuffer r with
      | .error e => .error e
      | .ok (red, r) => .ok (.update black red, r)
  | .deepSleep => .ok (.deepSleep, l)
  | .status => .ok (.status, l)
  | .exec =>
    match takeExec p l with
    | .error e => .error e
    | .ok (c, r) => .ok (.exec c, r)
  | .execBuf =>
    match takeExecBuf p l with
    | .error e => .error e
    | .ok (c, r) => .ok (.execBuf c, r)
  | .wait => .ok (.wait, l)
  | .clear =>
    match take8 l with
    | .error e => .error e
    | .ok (b, r) =>
      match colorOf b with
      | .error e => .error e
      | .ok c => .ok (.clear c, r)
  | .setPixel =>
    match takePixel l with
    | .error e => .error e
    | .ok (px, r) => .ok (.setPixel px.x px.y px.color, r)
  | .drawPixels =>
    match take16 l with
    | .error e => .error e
    | .ok (n, r) =>
      match takePixels n.toNat r with
      | .error e => .error e
      | .ok (pxs, r) => .ok (.drawPixels pxs, r)
  | .gfxUpdate => .ok (.gfxUpdate, l)
  | .planeWrite =>
    match l with
    | a :: b :: c :: v :: r =>
      match planeOf a with
      | .error e => .error e
      | .ok pl => .ok (.planeWrite pl (le16 b c) v, r)
    | _ => .error .truncated
  | .planeRead =>
    match l with
    | a :: b :: c :: r =>
      match planeOf a with
      | .error e => .error e
      | .ok pl => .ok (.planeRead pl (le16 b c), r)
    | _ => .error .truncated

/-- The decoder of the block: a byte string to a host request and the bytes after it (R110). The length comes
from the code and the length fields alone (R113). -/
def decode (p : Params) : List Byte → Except DecodeError (Instr × List Byte)
  | [] => .error .truncated
  | code :: r =>
    match ReqKind.ofCode code with
    | none => .error .unknownCode
    | some k => takeRequest p k r

/-- The reading of one wire frame, a CMD byte and its DATA bytes, by the opcode map of R104: what a receiver
could recover from the trace. The block itself never decodes frames (R100). -/
def decodeFrame (p : Params) (op : Byte) (data : List Byte) : Option WireCmd :=
  match p.opc.kindOf op with
  | none => none
  | some k =>
    match bufCommandOf k data with
    | some c => some (.buffer c)
    | none =>
      match takeCommand p k data with
      | .ok (c, []) => some (.fixed c)
      | _ => none

/-! ### Encoding -/

/-- The row of R104 of a fixed-argument command. -/
def Command.kind : Command → CmdKind
  | .driverOutputControl _ _ => .driverOutputControl
  | .gateDrivingVoltage _ => .gateDrivingVoltage
  | .sourceDrivingVoltage _ _ _ => .sourceDrivingVoltage
  | .boosterEnable _ _ _ _ => .boosterEnable
  | .gateScanStartPosition _ => .gateScanStartPosition
  | .deepSleepMode _ => .deepSleepMode
  | .dataEntryMode _ _ => .dataEntryMode
  | .softReset => .softReset
  | .updateDisplay => .updateDisplay
  | .updateDisplayOption2 _ => .updateDisplayOption2
  | .writeVcom _ => .writeVcom
  | .dummyLinePeriod _ => .dummyLinePeriod
  | .gateLineWidth _ => .gateLineWidth
  | .borderWaveform _ => .borderWaveform
  | .startEndXPosition _ _ => .startEndXPosition
  | .startEndYPosition _ _ => .startEndYPosition
  | .xAddress _ => .xAddress
  | .yAddress _ => .yAddress
  | .analogBlockControl _ => .analogBlockControl
  | .digitalBlockControl _ => .digitalBlockControl

/-- The row of R104 of a buffer command. -/
def BufCommand.kind : BufCommand → CmdKind
  | .writeBlackData _ => .writeBlackData
  | .writeRedData _ => .writeRedData
  | .writeLut _ => .writeLut

/-- The row of R104 of a logical command. -/
def WireCmd.kind : WireCmd → CmdKind
  | .fixed c => c.kind
  | .buffer c => c.kind

/-- The data bytes of a fixed-argument command: the data-bytes column of R104, built by R105. -/
def Command.data (p : Params) : Command → List Byte
  | .driverOutputControl gateLines scan => [lo8 gateLines, hi8 gateLines, scan]
  | .gateDrivingVoltage v => [v]
  | .sourceDrivingVoltage vsh1 vsh2 vsl => [vsh1, vsh2, vsl]
  | .boosterEnable p1 p2 p3 dur => [p1, p2, p3, dur]
  | .gateScanStartPosition pos => [lo8 pos, hi8 pos]
  | .deepSleepMode mode => [p.sleepCode.byte mode]
  | .dataEntryMode mode axis => [entryByte mode axis]
  | .softReset => []
  | .updateDisplay => []
  | .updateDisplayOption2 v => [v]
  | .writeVcom v => [v]
  | .dummyLinePeriod v => [v]
  | .gateLineWidth v => [v]
  | .borderWaveform v => [v]
  | .startEndXPosition first last => [first, last]
  | .startEndYPosition first last => [lo8 first, hi8 first, lo8 last, hi8 last]
  | .xAddress a => [a]
  | .yAddress a => [lo8 a, hi8 a]
  | .analogBlockControl v => [v]
  | .digitalBlockControl v => [v]

/-- The data bytes of a logical command; a buffer is copied in index order (R105). -/
def WireCmd.data (p : Params) : WireCmd → List Byte
  | .fixed c => c.data p
  | .buffer c => c.buf

/-- The opcode of a logical command. -/
def WireCmd.op (p : Params) (c : WireCmd) : Byte := p.opc.byte c.kind

/-- A wire frame as a byte string: the opcode, then the data bytes (R101). -/
def WireCmd.frame (p : Params) (c : WireCmd) : List Byte := c.op p :: c.data p

/-- The colour code (spec/10_state.md R38). -/
def Color.code : Color → Byte
  | .black => 0
  | .white => 1
  | .red => 2

/-- The plane code (R110). -/
def Plane.code : Plane → Byte
  | .black => 0
  | .red => 1

/-- A pixel record (R110). -/
def Pixel.bytes (px : Pixel) : List Byte := bytes32 px.x ++ (bytes32 px.y ++ [px.color.code])

/-- The pixel records of a list, in order (R110). -/
def pixelBytes : List Pixel → List Byte
  | [] => []
  | px :: pxs => px.bytes ++ pixelBytes pxs

/-- A length field and its bytes (R110). -/
def bufferBytes (l : List Byte) : List Byte := bytes16 (BitVec.ofNat 16 l.length) ++ l

/-- The encoder: a host request as R110 lays it out, a wire command as its frame (R101). -/
def encode (p : Params) : Instr → List Byte
  | .driverOutputControl g s => (WireCmd.fixed (.driverOutputControl g s)).frame p
  | .gateDrivingVoltage v => (WireCmd.fixed (.gateDrivingVoltage v)).frame p
  | .sourceDrivingVoltage a b c => (WireCmd.fixed (.sourceDrivingVoltage a b c)).frame p
  | .boosterEnable a b c d => (WireCmd.fixed (.boosterEnable a b c d)).frame p
  | .gateScanStartPosition a => (WireCmd.fixed (.gateScanStartPosition a)).frame p
  | .deepSleepMode m => (WireCmd.fixed (.deepSleepMode m)).frame p
  | .dataEntryMode m a => (WireCmd.fixed (.dataEntryMode m a)).frame p
  | .softReset => (WireCmd.fixed .softReset).frame p
  | .updateDisplay => (WireCmd.fixed .updateDisplay).frame p
  | .updateDisplayOption2 v => (WireCmd.fixed (.updateDisplayOption2 v)).frame p
  | .writeBlackData b => (WireCmd.buffer (.writeBlackData b)).frame p
  | .writeRedData b => (WireCmd.buffer (.writeRedData b)).frame p
  | .writeVcom v => (WireCmd.fixed (.writeVcom v)).frame p
  | .writeLut b => (WireCmd.buffer (.writeLut b)).frame p
  | .dummyLinePeriod v => (WireCmd.fixed (.dummyLinePeriod v)).frame p
  | .gateLineWidth v => (WireCmd.fixed (.gateLineWidth v)).frame p
  | .borderWaveform v => (WireCmd.fixed (.borderWaveform v)).frame p
  | .startEndXPosition a b => (WireCmd.fixed (.startEndXPosition a b)).frame p
  | .startEndYPosition a b => (WireCmd.fixed (.startEndYPosition a b)).frame p
  | .xAddress a => (WireCmd.fixed (.xAddress a)).frame p
  | .yAddress a => (WireCmd.fixed (.yAddress a)).frame p
  | .analogBlockControl v => (WireCmd.fixed (.analogBlockControl v)).frame p
  | .digitalBlockControl v => (WireCmd.fixed (.digitalBlockControl v)).frame p
  | .reset => [ReqKind.reset.code]
  | .update black red => ReqKind.update.code :: (bufferBytes black ++ bufferBytes red)
  | .deepSleep => [ReqKind.deepSleep.code]
  | .status => [ReqKind.status.code]
  | .exec c => ReqKind.exec.code :: (WireCmd.fixed c).frame p
  | .execBuf c => ReqKind.execBuf.code :: p.opc.byte c.kind :: bufferBytes c.buf
  | .wait => [ReqKind.wait.code]
  | .clear c => [ReqKind.clear.code, c.code]
  | .setPixel x y c => ReqKind.setPixel.code :: Pixel.bytes { x := x, y := y, color := c }
  | .drawPixels pxs => ReqKind.drawPixels.code :: (bytes16 (BitVec.ofNat 16 pxs.length) ++ pixelBytes pxs)
  | .gfxUpdate => [ReqKind.gfxUpdate.code]
  | .planeWrite pl i v => ReqKind.planeWrite.code :: pl.code :: (bytes16 i ++ [v])
  | .planeRead pl i => ReqKind.planeRead.code :: pl.code :: bytes16 i

/-! ### Table words -/

/-- The bytes of a table word: `n` bytes, bit 0 the least significant bit of the first. -/
def wordBytes : Nat → Nat → List Byte
  | 0, _ => []
  | n + 1, w => BitVec.ofNat 8 w :: wordBytes n (w / 256)

/-- The bytes of a table word followed by the zero bytes of its operands, as many as any operand-free reading needs. -/
def paddedBytes (nbits w : Nat) : List Byte := wordBytes (nbits / 8) w ++ List.replicate 16 0

/-- The wire command whose frame a table word and zero operands are: the first data bytes its format needs, and
for a buffer row the bytes of the word itself after the opcode. -/
def tableWireCmd (nbits w : Nat) : Option WireCmd :=
  match wordBytes (nbits / 8) w with
  | [] => none
  | op :: r =>
    match Params.standard.opc.kindOf op with
    | none => none
    | some k =>
      match k.format.count with
      | none => decodeFrame Params.standard op r
      | some n => decodeFrame Params.standard op ((r ++ List.replicate 16 0).take n)

/-- The instruction the decoder reads from a table word (bits above `nbits` zero). The two levels share byte
values (RESET and DriverOutputControl are both 0x01): a byte that is a request code is read as the request, as
the block would (R100); any other as the opcode of a wire frame. Log 1. -/
def decodeTableWord (nbits w : Nat) : Option Instr :=
  match decode Params.standard (paddedBytes nbits w) with
  | .ok (i, _) => some i
  | .error .unknownCode => (tableWireCmd nbits w).map WireCmd.toInstr
  | .error _ => none

end Sys2Proof
end

