-- ==== Sys2Proof/Machine/State.lean ====
section
/-! DEFINITION. The state of the block (spec/10_state.md), all of it plain data, the reasons a step can stop, and
the state after power-on (spec/70_reset_and_hazards.md R330). -/

namespace Sys2Proof.Machine

/-! ### The sequencer state and the configuration registers -/

/-- `st.seq` (R32): six values; the codes 6 and 7 are never written. -/
inductive SeqState where
  | uninitialized | initialized | ready | updating | sleeping | errored
  deriving DecidableEq, Repr

/-- The mounting rotation (R36). -/
inductive Rotation where
  | rot0 | rot90 | rot180 | rot270
  deriving DecidableEq, Repr

/-- The configuration registers `cfg` (R34), written only by the builder. -/
structure Cfg where
  rows            : Half
  cols            : Half
  rotation        : Rotation := .rot0
  dummyLinePeriod : Byte := 0x07
  gateLineWidth   : Byte := 0x04
  vcom            : Byte := 0x3C
  lut             : Option (List Byte) := none
  dataEntryMode   : EntryMode := .incrementYIncrementX
  incrementAxis   : Axis := .horizontal
  deriving DecidableEq, Repr

/-! ### Faults, events and responses of the hardware -/

/-- The cause codes (spec/60_exceptions.md R291). CONFIG_ERROR and TRANSPORT_ERROR are returned, never latched. -/
inductive ErrorCode where
  | configError | geometryInvalid | argOutOfRange | contractViolation | transportError | unimplementedCommand
  | illegalRequest
  deriving DecidableEq, Repr

/-- The info recorded with a fault (R291). A command is recorded whole, with its arguments (log 20). -/
inductive FaultInfo where
  /-- ILLEGAL_REQUEST: the request bytes. -/
  | requestBytes (bytes : List Byte)
  /-- ARG_OUT_OF_RANGE: the command and its arguments. -/
  | command (c : WireCmd)
  /-- ARG_OUT_OF_RANGE of the plane port: the index (spec/42_framebuffer.md R244, R245). -/
  | planeIndex (index : Half)
  /-- UNIMPLEMENTED_COMMAND: the command's name. -/
  | name (k : CmdKind)
  /-- CONTRACT_VIOLATION: (nb, nr, PLANE_LEN) (spec/41_sequencer.md R200). -/
  | shortBuffer (nb nr planeLen : Nat)
  /-- GEOMETRY_INVALID at build: (rows, cols) (spec/43_configuration.md R273). -/
  | geometry (rows cols : Half)
  /-- ARG_OUT_OF_RANGE at build: the dummy line period (R270). -/
  | buildDummyLinePeriod (v : Byte)
  /-- ARG_OUT_OF_RANGE at build: the lookup table (R270). -/
  | buildLut (bytes : List Byte)
  deriving DecidableEq, Repr

/-- What `st.fault` holds when it is set: (code, info) (R40, R295). -/
structure FaultRecord where
  code : ErrorCode
  info : FaultInfo
  deriving DecidableEq, Repr

/-- One event of the transport trace (R50). A failed send is recorded with the transport's error. -/
inductive Event where
  | cmd (b : Byte)
  | data (bs : List Byte)
  | resetPulse
  | waitBusy
  | delay (ms : Nat)
  | cmdFailed (b : Byte) (e : TransportError)
  | dataFailed (bs : List Byte) (e : TransportError)
  deriving DecidableEq, Repr

/-- The one response that ends a request which does not fault (spec/30_encoding.md R112). -/
inductive Response where
  | ok
  /-- OK(value) of PLANE_READ. -/
  | okByte (v : Byte)
  /-- OK(value) of STATUS (spec/41_sequencer.md R212). -/
  | okStatus (seq : SeqState) (misuse : Bool) (lastErr : Option TransportError)
  /-- ERR(TRANSPORT, e). -/
  | errTransport (e : TransportError)
  deriving DecidableEq, Repr

/-! ### The sequence position -/

/-- `st.pos` (R31): IDLE, or the request in progress, whether it is misused (spec/41_sequencer.md R191), and the
index `k` of its next step. The request carries its own operands (R30). -/
inductive Pos where
  | idle
  | running (req : Instr) (misused : Bool) (k : Nat)
  deriving DecidableEq, Repr

/-! ### The planes -/

/-- A plane as the bytes written to it: (index, byte) pairs, indices strictly rising. A byte that is not listed has
never been written and reads as its power-on draw (R39). -/
abbrev Memory := List Host.Cell

/-! ### The controller as the observation sees it (R41 to R45) -/

/-- What `ctrl.lut` may hold (R41, R43). -/
inductive CtrlLut where
  | powerOnDefault
  | uploaded (bytes : List Byte)
  deriving DecidableEq, Repr

/-- The abstract controller fields (R41). `none` is "unknown (any value)" (R45). No rule of the block reads them.
`longOp` and `lost` are the model's own (log 13). -/
structure Ctrl where
  bwRam  : Option (List Byte)
  redRam : Option (List Byte)
  asleep : Option Bool
  lut    : Option CtrlLut
  /-- A soft reset or a display update was sent and no WAIT_BUSY has completed since (R340). -/
  longOp : Bool
  /-- The controller's response is any value until a RESET completes (R45, R340, R342). Log 13. -/
  lost   : Bool
  deriving DecidableEq, Repr

/-! ### The reasons a step stops -/

/-- Model-level faults. -/
inductive Fault where
  /-- Raised by `step` and `exec` on a block whose `st.fault` is set: it halts and no request is accepted
  (spec/60_exceptions.md R295, R296). Safe: the hardware takes no step there either. -/
  | halted (record : FaultRecord)
  deriving DecidableEq, Repr

/-- Model-level refusals. -/
inductive Refusal where
  /-- Raised by `exec`'s arm of an instruction that has no meaning yet. Safe. -/
  | notModelled (mnemonic : String)
  /-- Raised by the meaning of a host request while another request is in progress: the block accepts a request
  only when `st.pos = IDLE` (spec/41_sequencer.md R190, R298). `step` never gets there. Safe. -/
  | requestInProgress
  deriving DecidableEq, Repr

/-! ### The state -/

/-- Everything the spec gives the block, and the plain data the model adds (INVENTORY.md, State). -/
structure State where
  /-- The parameters of spec/00_scope.md R8; nothing writes them. -/
  params    : Params
  /-- `cfg` (R34); nothing writes it after the build. -/
  cfg       : Cfg
  /-- `st.pos` (R31). -/
  pos       : Pos
  /-- `st.seq` (R32). -/
  seq       : SeqState
  /-- `st.misuse`, sticky (R40). -/
  misuse    : Bool
  /-- `st.fault` (R40). -/
  fault     : Option FaultRecord
  /-- `st.last_err` (R40). -/
  lastErr   : Option TransportError
  /-- `st.busy_in`: the level of the busy input at the last poll (R40, R51). -/
  busyIn    : Bool
  /-- `st.black` (R39). -/
  black     : Memory
  /-- `st.red` (R39). -/
  red       : Memory
  /-- `st.trace`, oldest first (R50). -/
  trace     : List Event
  /-- The responses given, oldest first (spec/30_encoding.md R112; log 23). -/
  responses : List Response
  /-- The byte strings the host has issued and the block has not accepted yet, oldest first (R110; log 2). -/
  inbox     : List (List Byte)
  /-- The controller as the observation sees it (R41). -/
  ctrl      : Ctrl
  /-- The results of the first sends: none is OK (R52; log 5). -/
  sendPlan  : List (Option TransportError)
  /-- How many sends have been made (log 5). -/
  sendCount : Nat
  /-- The busy levels of the first polls (R51; log 7). -/
  busyPlan  : List Bool
  /-- How many polls have been made (log 7). -/
  pollCount : Nat
  deriving DecidableEq, Repr

/-- The controller at power-on: unknown, but for its lookup table (R330). -/
def Ctrl.powerOn : Ctrl :=
  { bwRam := none, redRam := none, asleep := none, lut := some .powerOnDefault, longOp := false, lost := false }

/-- The block right after its instantiation from a built configuration (spec/43_configuration.md R275, R330). -/
def State.powerOn (p : Params) (cfg : Cfg) : State :=
  { params := p, cfg := cfg, pos := .idle, seq := .uninitialized, misuse := false, fault := none, lastErr := none,
    busyIn := Config.powerOnBusy, black := [], red := [], trace := [], responses := [], inbox := [],
    ctrl := Ctrl.powerOn, sendPlan := [], sendCount := 0, busyPlan := [], pollCount := 0 }

/-- The machine after power-on, at the default parameters and with the configuration that a build with only
`dimensions(3, 8)` gives, the default of spec/95_test_vectors.md (log 12). -/
def State.reset : State := State.powerOn Params.standard { rows := 3, cols := 8 }

end Sys2Proof.Machine
end

