-- ==== Sys2Proof/Machine/Operands.lean ====
section
/-! DEFINITION. Operands: the geometry (spec/00_scope.md R10), the argument ranges of a command
(spec/30_encoding.md R106), and a pixel operand's way to a plane bit: the bounds check, the rotation transform and
the colour (spec/42_framebuffer.md R230 to R239). -/

namespace Sys2Proof.Machine

/-! ### Geometry -/

/-- The native width, `cfg.cols` (R230). -/
def Cfg.width (c : Cfg) : Nat := c.cols.toNat

/-- The native height, `cfg.rows` (R230). -/
def Cfg.height (c : Cfg) : Nat := c.rows.toNat

/-- `PLANE_LEN = (rows * cols + 7) div 8` (R10). -/
def Cfg.planeLen (c : Cfg) : Nat := (c.height * c.width + 7) / 8

/-- `BYTES_PER_ROW = cols div 8` (R10). -/
def Cfg.bytesPerRow (c : Cfg) : Nat := c.width / 8

/-- The geometry the builder admits (spec/10_state.md R35, spec/43_configuration.md R273). -/
def geometryOk (p : Params) (rows cols : Half) : Bool :=
  decide (cols.toNat % 8 = 0) && decide (rows.toNat ≤ p.maxGateOutputs) && decide (cols.toNat ≤ p.maxSourceOutputs)
    && decide (1 ≤ rows.toNat) && decide (8 ≤ cols.toNat)

/-- A lookup table's length is legal (R8 `LUT_STRICT`, D25). -/
def lutOk (p : Params) (buf : List Byte) : Bool := !p.lutStrict || decide (buf.length = p.lutLen)

/-! ### Argument ranges (R106) -/

/-- An X bound or the X address: `0 ≤ v ≤ MAX_SOURCE_OUTPUTS div 8 − 1` (R106), written without the subtraction (log 21). -/
def xInRange (p : Params) (a : Byte) : Bool := decide (a.toNat < p.maxSourceOutputs / 8)

/-- A Y bound or the Y address: `0 ≤ v ≤ MAX_GATE_OUTPUTS`, the bound inclusive (R106). -/
def yInRange (p : Params) (a : Half) : Bool := decide (a.toNat ≤ p.maxGateOutputs)

/-- The ranges of a fixed-argument command's arguments; every other argument takes its full width (R106). -/
def commandInRange (p : Params) : Command → Bool
  | .driverOutputControl gateLines _ => decide (gateLines.toNat ≤ p.maxGateOutputs)
  | .gateDrivingVoltage _ => true
  | .sourceDrivingVoltage _ _ _ => true
  | .boosterEnable _ _ _ _ => true
  | .gateScanStartPosition pos => decide (pos.toNat < p.maxGateOutputs)
  | .deepSleepMode _ => true
  | .dataEntryMode _ _ => true
  | .softReset => true
  | .updateDisplay => true
  | .updateDisplayOption2 _ => true
  | .writeVcom _ => true
  | .dummyLinePeriod v => decide (v.toNat ≤ p.maxDummyLinePeriod)
  | .gateLineWidth _ => true
  | .borderWaveform _ => true
  | .startEndXPosition first last => xInRange p first && xInRange p last
  | .startEndYPosition first last => yInRange p first && yInRange p last
  | .xAddress a => xInRange p a
  | .yAddress a => yInRange p a
  | .analogBlockControl _ => true
  | .digitalBlockControl _ => true

/-- The ranges of a buffer command: only WriteLUT's length is checked (R106). -/
def bufInRange (p : Params) : BufCommand → Bool
  | .writeBlackData _ => true
  | .writeRedData _ => true
  | .writeLut buf => lutOk p buf

/-- The ranges of a logical command. -/
def wireInRange (p : Params) : WireCmd → Bool
  | .fixed c => commandInRange p c
  | .buffer c => bufInRange p c

/-- Whether a command is one of the two GK extras (R140, spec/92_eei_decisions.md D29). -/
def isExtra (c : WireCmd) : Bool :=
  c.kind == .boosterEnable || c.kind == .gateScanStartPosition

/-- The UNIMPLEMENTED_COMMAND check (R145, R146). -/
def unimplementedFault (p : Params) (c : WireCmd) : Option FaultRecord :=
  if isExtra c && !p.admitGkExtra then some { code := .unimplementedCommand, info := .name c.kind } else none

/-- The ARG_OUT_OF_RANGE check of one command (R106, R141). -/
def rangeFault (p : Params) (c : WireCmd) : Option FaultRecord :=
  if wireInRange p c then none else some { code := .argOutOfRange, info := .command c }

/-- Both checks of one command, in the order of spec/60_exceptions.md R293. -/
def commandFault (p : Params) (c : WireCmd) : Option FaultRecord :=
  match unimplementedFault p c with
  | some f => some f
  | none => rangeFault p c

/-! ### From a pixel to a plane bit -/

/-- The coordinate that a request's `u32` field stands for: `COORD_W` bits, unsigned (R240). A value that fits is the
coordinate; for one that does not fit in a narrower `COORD_W` the spec states no coordinate, and a free value of that
width stands for it. DESIGN CHOICE, log 11. -/
def coordOf (p : Params) (field : Coord) : Nat :=
  if field.toNat < 2 ^ p.coordW then field.toNat
  else Config.wideCoord p.coordW field.toNat % 2 ^ p.coordW

/-- The logical bounds check (R238): the axes swap under the quarter turns. -/
def outside (c : Cfg) (x y : Nat) : Bool :=
  match c.rotation with
  | .rot0 | .rot180 => decide (c.width ≤ x) || decide (c.height ≤ y)
  | .rot90 | .rot270 => decide (c.width ≤ y) || decide (c.height ≤ x)

/-- `0x80 >> k` on a byte. -/
def maskFromLeft (k : Nat) : Byte := 0x80#8 >>> k

/-- `0x01 << k` on a byte. -/
def maskFromRight (k : Nat) : Byte := 0x01#8 <<< k

/-- The rotation transform (R233): rules R234 to R237, on naturals. -/
def transform (c : Cfg) (x y : Nat) : Nat × Byte :=
  match c.rotation with
  | .rot0 => (x / 8 + c.width / 8 * y, maskFromLeft (x % 8))
  | .rot90 => ((c.width - 1 - y) / 8 + c.width / 8 * x, maskFromRight (y % 8))
  | .rot180 => (c.width / 8 * c.height - 1 - (x / 8 + c.width / 8 * y), maskFromRight (x % 8))
  | .rot270 => (y / 8 + (c.height - 1 - x) * (c.width / 8), maskFromLeft (y % 8))

/-- The plane bytes after a colour is applied under a mask (R232): (black byte, red byte). -/
def applyColor (color : Color) (m b r : Byte) : Byte × Byte :=
  match color with
  | .black => (b &&& ~~~m, r &&& ~~~m)
  | .white => (b ||| m, r &&& ~~~m)
  | .red => (b ||| m, r ||| m)

/-- The fill bytes of CLEAR (R231): (black byte, red byte). -/
def fillPattern : Color → Byte × Byte
  | .white => (0xFF, 0x00)
  | .black => (0x00, 0x00)
  | .red => (0xFF, 0xFF)

/-- The displayed colour of a pixel from its plane bits (black, red) (spec/10_state.md R46). The pair (0, 1) is
left open: the spec assigns it no displayed colour. -/
def displayedColor (blackBit redBit : Bool) : Option Color :=
  match blackBit, redBit with
  | true, false => some .white
  | false, false => some .black
  | true, true => some .red
  | false, true => none

end Sys2Proof.Machine
end

