-- ==== Sys2Proof/Machine/Flags.lean ====
section
/-! DEFINITION. The status fields (spec/10_state.md R32, R40): the codes of `st.seq`, the legal states and the misuse
flag of the request in progress (spec/41_sequencer.md R191), and the writes of `st.seq`. No request sets condition codes. -/

namespace Sys2Proof.Machine

/-- The 3-bit code of `st.seq` (R32). -/
def SeqState.code : SeqState → BitVec 3
  | .uninitialized => 0
  | .initialized => 1
  | .ready => 2
  | .updating => 3
  | .sleeping => 4
  | .errored => 5

/-- The 2-bit code of a rotation (R36). -/
def Rotation.code : Rotation → BitVec 2
  | .rot0 => 0
  | .rot90 => 1
  | .rot180 => 2
  | .rot270 => 3

/-- The numeric cause code (spec/60_exceptions.md R291). -/
def ErrorCode.number : ErrorCode → Nat
  | .configError => 1
  | .geometryInvalid => 2
  | .argOutOfRange => 3
  | .contractViolation => 4
  | .transportError => 5
  | .unimplementedCommand => 6
  | .illegalRequest => 7

/-- Whether a request is legal in a sequencer state (R191). Wire commands are no requests and are never misused. -/
def legalIn (i : Instr) (q : SeqState) : Bool :=
  match i with
  | .update _ _ | .gfxUpdate | .deepSleep => q == .ready
  | .reset | .status | .exec _ | .execBuf _ | .wait | .clear _ | .setPixel _ _ _ | .drawPixels _ | .planeWrite _ _ _
  | .planeRead _ _ => true
  | .driverOutputControl _ _ | .gateDrivingVoltage _ | .sourceDrivingVoltage _ _ _ | .boosterEnable _ _ _ _
  | .gateScanStartPosition _ | .deepSleepMode _ | .dataEntryMode _ _ | .softReset | .updateDisplay
  | .updateDisplayOption2 _ | .writeBlackData _ | .writeRedData _ | .writeVcom _ | .writeLut _ | .dummyLinePeriod _
  | .gateLineWidth _ | .borderWaveform _ | .startEndXPosition _ _ | .startEndYPosition _ _ | .xAddress _
  | .yAddress _ | .analogBlockControl _ | .digitalBlockControl _ => true

/-- Whether the request in progress is misused (R191). -/
def Pos.misused : Pos → Bool
  | .idle => false
  | .running _ m _ => m

/-- A request's own write of `st.seq`, suppressed when the request is misused (R191). -/
def State.setSeq (q : SeqState) (s : State) : State :=
  { s with seq := if s.pos.misused then s.seq else q }

/-- The position after a completed step: (req, k + 1) (R31). -/
def State.nextPos (s : State) : State :=
  { s with pos := match s.pos with
                  | .idle => .idle
                  | .running i m k => .running i m (k + 1) }

end Sys2Proof.Machine
end

