-- ==== Sys2Proof/Machine/Ops.lean ====
section
/-! DEFINITION. The shared operations: plane memory (spec/20_memory.md), the transport primitives
(spec/00_scope.md R13, spec/10_state.md R50 to R52), the transport-error path (spec/41_sequencer.md R210),
taking a fault (spec/60_exceptions.md R295), `encode_and_send` (spec/40_commands.md R141), and the end of a request. -/

namespace Sys2Proof.Machine

/-! ### Plane memory -/

/-- The byte written at an index, if any. -/
def Memory.lookup : Memory → Nat → Option Byte
  | [], _ => none
  | (a, b) :: m, i => if a = i then some b else Memory.lookup m i

/-- Write one byte, keeping the indices strictly rising. -/
def Memory.store : Memory → Nat → Byte → Memory
  | [], i, v => [(i, v)]
  | (a, b) :: m, i, v =>
    if i < a then (i, v) :: (a, b) :: m
    else if i = a then (i, v) :: m
    else (a, b) :: Memory.store m i v

/-- Write `v` to every index below `n`, in rising order (spec/42_framebuffer.md R231). -/
def Memory.fill (m : Memory) (v : Byte) : Nat → Memory
  | 0 => m
  | n + 1 => Memory.store (Memory.fill m v n) n v

/-- Every index is above a bound, and they rise strictly. -/
def Memory.risingFrom : Nat → Memory → Bool
  | _, [] => true
  | lo, (a, _) :: m => decide (lo ≤ a) && Memory.risingFrom (a + 1) m

/-- The canonical form: indices strictly rising. An unlisted index holds no written byte, so no entry equals what
an unlisted index holds (log 8). -/
def Memory.wf (m : Memory) : Bool := Memory.risingFrom 0 m

/-- Every index is below a bound. -/
def Memory.below (n : Nat) (m : Memory) : Bool := m.all (fun c => decide (c.1 < n))

/-- The plane buffer (spec/10_state.md R39). -/
def State.plane (s : State) : Plane → Memory
  | .black => s.black
  | .red => s.red

/-- The power-on draw of a plane byte (R39, D22). -/
def powerOnByte : Plane → Nat → Byte
  | .black => Config.powerOnBlack
  | .red => Config.powerOnRed

/-- `MemRead(P, i, 1)` (spec/00_scope.md R12): the last byte written, or the power-on draw (spec/20_memory.md R81). -/
def State.readByte (s : State) (p : Plane) (i : Nat) : Byte :=
  match (s.plane p).lookup i with
  | some b => b
  | none => powerOnByte p i

/-- Replace a plane buffer. -/
def State.setPlane (p : Plane) (m : Memory) (s : State) : State :=
  match p with
  | .black => { s with black := m }
  | .red => { s with red := m }

/-- `MemWrite(P, i, 1, v)` (R12). -/
def State.writeByte (p : Plane) (i : Nat) (v : Byte) (s : State) : State :=
  s.setPlane p ((s.plane p).store i v)

/-- The plane's bytes from index `i`, `n` of them, in index order (spec/20_memory.md R73). -/
def State.planeBytesFrom (s : State) (p : Plane) : Nat → Nat → List Byte
  | _, 0 => []
  | i, n + 1 => s.readByte p i :: s.planeBytesFrom p (i + 1) n

/-- `P[0..PLANE_LEN]` (R73). -/
def State.planeBytes (s : State) (p : Plane) : List Byte := s.planeBytesFrom p 0 s.cfg.planeLen

/-- CLEAR's writes: every byte of both planes (spec/42_framebuffer.md R231). -/
def State.fillPlanes (fb fr : Byte) (s : State) : State :=
  { s with black := s.black.fill fb s.cfg.planeLen, red := s.red.fill fr s.cfg.planeLen }

/-- `apply(i, m, color)` (R232). -/
def State.applyAt (i : Nat) (m : Byte) (c : Color) (s : State) : State :=
  let out := applyColor c m (s.readByte .black i) (s.readByte .red i)
  (s.writeByte .black i out.1).writeByte .red i out.2

/-- One pixel: dropped when it is outside (R238), else the transform and the colour (R240). -/
def State.drawPixel (px : Pixel) (s : State) : State :=
  if outside s.cfg (coordOf s.params px.x) (coordOf s.params px.y) then s
  else
    let t := transform s.cfg (coordOf s.params px.x) (coordOf s.params px.y)
    s.applyAt t.1 t.2 px.color

/-! ### The controller fields (spec/10_state.md R41 to R45) -/

/-- The controller's state is any value (R45). -/
def Ctrl.forget (c : Ctrl) : Ctrl :=
  { c with bwRam := none, redRam := none, asleep := none, lut := none, lost := true }

/-- A frame sent while the controller may be busy: its response is any value (spec/70_reset_and_hazards.md R340). -/
def Ctrl.onFrame (c : Ctrl) : Ctrl := if c.longOp then c.forget else c

/-- The commands that set busy: the soft reset and the display update (R340; the rest is PRESUMED not to, G23, log 19). -/
def isLongOp (k : CmdKind) : Bool := k == .softReset || k == .updateDisplay

/-- A frame has gone out: a long operation is pending after it, if the command begins one (R340). -/
def Ctrl.afterFrame (k : CmdKind) (c : Ctrl) : Ctrl := { c with longOp := c.longOp || isLongOp k }

/-- The busy-wait is over: no long operation is pending. -/
def Ctrl.afterWait (c : Ctrl) : Ctrl := { c with longOp := false }

/-- After a completed RESET (R43, R44); its completion ends the unknown (R45). -/
def Ctrl.afterReset (lut : Option (List Byte)) (c : Ctrl) : Ctrl :=
  { c with asleep := some false,
           lut := some (match lut with
                        | some l => .uploaded l
                        | none => .powerOnDefault),
           lost := false }

/-- A misused request is sent to a controller whose response is any value (spec/70_reset_and_hazards.md R342). The rule
names no moment; the unknown begins with the request, before its first event. DESIGN CHOICE, log 13. -/
def Ctrl.onRequest (misused : Bool) (c : Ctrl) : Ctrl := if misused then c.forget else c

/-- After a completed UPDATE: the mirror of R42. A lost controller stays unknown, and the controller of a misused
request is lost from its start. -/
def Ctrl.afterUpdate (black red : List Byte) (c : Ctrl) : Ctrl :=
  if c.lost then c else { c with bwRam := some black, redRam := some red }

/-- After a completed DEEP_SLEEP (R44). A lost controller stays unknown, as after an UPDATE. -/
def Ctrl.afterSleep (c : Ctrl) : Ctrl :=
  if c.lost then c else { c with asleep := some true }

/-! ### Faults -/

/-- TAKING A FAULT (spec/60_exceptions.md R295): the latch is set, the position is IDLE, no response is given.
There is no return from it (R296). -/
def State.raiseFault (f : FaultRecord) (s : State) : State :=
  { s with fault := some f, pos := .idle }

/-! ### The transport -/

/-- How one step of a request ends: it completed, the request is over, or it holds. -/
inductive Flow where
  | go (s : State)
  | ended (s : State)
  | held (s : State)
  deriving DecidableEq, Repr

/-- The state a step leaves, however it ended. -/
def Flow.state : Flow → State
  | .go s => s
  | .ended s => s
  | .held s => s

/-- Go on with the next part of a step only if the part before it completed. -/
def Flow.andThen (f : Flow) (g : State → Flow) : Flow :=
  match f with
  | .go s => g s
  | .ended s => .ended s
  | .held s => .held s

/-- Append an event to the trace (R50). -/
def State.record (e : Event) (s : State) : State := { s with trace := s.trace ++ [e] }

/-- The result of send number `n`: none is OK (R52). The planned results first, then free draws. -/
def State.sendResult (s : State) (n : Nat) : Option TransportError :=
  match s.sendPlan[n]? with
  | some r => r
  | none => Config.sendDraw n

/-- The busy level that poll number `n` sees (R51). The planned levels first, then free draws. -/
def State.busyLevel (s : State) (n : Nat) : Bool :=
  match s.busyPlan[n]? with
  | some b => b
  | none => Config.busyDraw n

/-- A transport error ends the request (spec/41_sequencer.md R210, spec/60_exceptions.md R297): ERRORED even when
the request is misused, the error recorded and returned, the controller unknown (R45), the block not halted. -/
def State.transportError (e : TransportError) (s : State) : State :=
  { s with seq := .errored, lastErr := some e, pos := .idle, ctrl := s.ctrl.forget,
           responses := s.responses ++ [.errTransport e] }

/-- One send: the next draw decides whether the event is recorded as sent, or as failed with the request ended. -/
def State.send (sent : Event) (failed : TransportError → Event) (s : State) : Flow :=
  let s' := { s with sendCount := s.sendCount + 1, ctrl := s.ctrl.onFrame }
  match s.sendResult s.sendCount with
  | none => .go (s'.record sent)
  | some e => .ended ((s'.record (failed e)).transportError e)

/-- `emit CMD(b)` (spec/00_scope.md R13). -/
def State.emitCmd (b : Byte) (s : State) : Flow := s.send (.cmd b) (.cmdFailed b)

/-- `emit DATA(bs)`, never with an empty list (R13, R141). -/
def State.emitData (bs : List Byte) (s : State) : Flow :=
  if bs.isEmpty then .go s else s.send (.data bs) (.dataFailed bs)

/-- `emit RESET_PULSE`; it cannot fail (R13, spec/41_sequencer.md R193). -/
def State.emitResetPulse (s : State) : State := s.record .resetPulse

/-- `emit DELAY(ms)`; it cannot fail (R13). -/
def State.emitDelay (ms : Nat) (s : State) : State := s.record (.delay ms)

/-- `emit WAIT_BUSY` (spec/41_sequencer.md R205): poll the busy input; hold while it is 1, complete when it is 0.
There is no timeout. -/
def State.emitWaitBusy (s : State) : Flow :=
  let b := s.busyLevel s.pollCount
  let s' := { s with busyIn := b, pollCount := s.pollCount + 1 }
  match b with
  | true => .held s'
  | false => .go { s' with trace := s.trace ++ [.waitBusy], ctrl := s.ctrl.afterWait }

/-- `frame(op, data)` (spec/00_scope.md R15), and the note that a long operation may have begun. -/
def State.sendFrame (c : WireCmd) (s : State) : Flow :=
  ((s.emitCmd (c.op s.params)).andThen (fun s1 => s1.emitData (c.data s1.params))).andThen
    (fun s2 => .go { s2 with ctrl := s2.ctrl.afterFrame c.kind })

/-- `encode_and_send(c)` (spec/40_commands.md R141): the checks, then the frame. -/
def State.encodeAndSend (c : WireCmd) (s : State) : Flow :=
  match commandFault s.params c with
  | some f => .ended (s.raiseFault f)
  | none => s.sendFrame c

/-! ### The start and the end of a request -/

/-- The misuse test and the entry to the step list (spec/41_sequencer.md R191, spec/10_state.md R31): the sticky flag,
the position (req, 0), and the controller's response unknown when the request is misused (R342). -/
def State.start (i : Instr) (s : State) : State :=
  { s with misuse := s.misuse || !legalIn i s.seq, pos := .running i (!legalIn i s.seq) 0,
           ctrl := s.ctrl.onRequest (!legalIn i s.seq) }

/-- `respond r` as a request's last step: the position is IDLE again (spec/10_state.md R31). -/
def State.finish (r : Response) (s : State) : State := { s with pos := .idle, responses := s.responses ++ [r] }

/-- The end of EXEC and EXEC_BUF (spec/41_sequencer.md R206, R207). -/
def State.finishExec (s : State) : State := { s with lastErr := none }.finish .ok

/-- The end of RESET (R192 step 6; R43, R44). -/
def State.finishReset (s : State) : State :=
  { s.setSeq .ready with lastErr := none, ctrl := s.ctrl.afterReset s.cfg.lut }.finish .ok

/-- The end of UPDATE and GFX_UPDATE (R199 step 12; R42). -/
def State.finishUpdate (black red : List Byte) (s : State) : State :=
  { s.setSeq .ready with lastErr := none, ctrl := s.ctrl.afterUpdate black red }.finish .ok

/-- The end of DEEP_SLEEP (R203 step 2; R44). -/
def State.finishSleep (s : State) : State :=
  { s.setSeq .sleeping with lastErr := none, ctrl := s.ctrl.afterSleep }.finish .ok

/-- The answer of STATUS (R212). -/
def State.finishStatus (s : State) : State := s.finish (.okStatus s.seq s.misuse s.lastErr)

/-- The answer of PLANE_READ (spec/42_framebuffer.md R245). -/
def State.finishRead (p : Plane) (i : Nat) (s : State) : State := s.finish (.okByte (s.readByte p i))

end Sys2Proof.Machine
end

