-- ==== Sys2Proof/Machine/Sequence.lean ====
section
/-! DEFINITION. The step lists of the host requests (spec/41_sequencer.md, spec/42_framebuffer.md), the checks that
precede them (spec/41_sequencer.md R190), and how the block runs them: one step at a time (spec/10_state.md R31),
a request to its end or to a hold. -/

namespace Sys2Proof.Machine

/-! ### Steps -/

/-- One step of a request's step list. -/
inductive Micro where
  /-- `emit RESET_PULSE`. -/
  | resetPulse
  /-- `encode_and_send(c)`. -/
  | send (c : WireCmd)
  /-- A bracketed step of R196: skipped when there is no command. -/
  | sendIf (c : Option WireCmd)
  /-- `emit WAIT_BUSY`. -/
  | waitBusy
  /-- `emit DELAY(ms)`. -/
  | delay (ms : Nat)
  /-- `st.seq <- q`, suppressed by misuse (R191). -/
  | setSeq (q : SeqState)
  /-- CLEAR's writes. -/
  | fill (fb fr : Byte)
  /-- One pixel; dropped when it is outside. -/
  | pixel (px : Pixel)
  /-- One plane byte. -/
  | writeByte (p : Plane) (i : Nat) (v : Byte)
  /-- The last step of the requests that only respond OK. -/
  | finish
  | finishExec
  | finishReset
  | finishUpdate (black red : List Byte)
  | finishSleep
  | finishStatus
  | finishRead (p : Plane) (i : Nat)
  deriving DecidableEq, Repr

/-- The command a step encodes, if it encodes one. -/
def Micro.command : Micro → Option WireCmd
  | .send c => some c
  | .sendIf c => c
  | .resetPulse | .waitBusy | .delay _ | .setSeq _ | .fill _ _ | .pixel _ | .writeByte _ _ _ | .finish | .finishExec
  | .finishReset | .finishUpdate _ _ | .finishSleep | .finishStatus | .finishRead _ _ => none

/-- The effect of one step. -/
def State.doMicro (m : Micro) (s : State) : Flow :=
  match m with
  | .resetPulse => .go s.emitResetPulse
  | .send c => s.encodeAndSend c
  | .sendIf none => .go s
  | .sendIf (some c) => s.encodeAndSend c
  | .waitBusy => s.emitWaitBusy
  | .delay ms => .go (s.emitDelay ms)
  | .setSeq q => .go (s.setSeq q)
  | .fill fb fr => .go (s.fillPlanes fb fr)
  | .pixel px => .go (s.drawPixel px)
  | .writeByte p i v => .go (s.writeByte p i v)
  | .finish => .ended (s.finish .ok)
  | .finishExec => .ended s.finishExec
  | .finishReset => .ended s.finishReset
  | .finishUpdate black red => .ended (s.finishUpdate black red)
  | .finishSleep => .ended s.finishSleep
  | .finishStatus => .ended s.finishStatus
  | .finishRead p i => .ended (s.finishRead p i)

/-! ### The step lists -/

/-- Initialisation, part 1 (spec/41_sequencer.md R195). -/
def initPart1 (p : Params) (cfg : Cfg) : List Micro :=
  [.send (.fixed (.analogBlockControl p.analogBlockValue)),
   .send (.fixed (.digitalBlockControl p.digitalBlockValue)),
   .send (.fixed (.driverOutputControl cfg.rows p.driverScan))]

/-- Initialisation, part 2 (R196); the bracketed steps are `sendIf`. -/
def initPart2 (p : Params) (cfg : Cfg) : List Micro :=
  [.sendIf (p.initGateVoltage.map fun v => .fixed (.gateDrivingVoltage v)),
   .sendIf (p.initSourceVoltage.map fun v => .fixed (.sourceDrivingVoltage v.1 v.2.1 v.2.2)),
   .send (.fixed (.dummyLinePeriod cfg.dummyLinePeriod)),
   .send (.fixed (.gateLineWidth cfg.gateLineWidth)),
   .send (.fixed (.writeVcom cfg.vcom)),
   .sendIf (p.initBorder.map fun v => .fixed (.borderWaveform v)),
   .sendIf (cfg.lut.map fun l => .buffer (.writeLut l)),
   .send (.fixed (.dataEntryMode cfg.dataEntryMode cfg.incrementAxis))]

/-- Initialisation, part 3 (R197): both starts 0, the X end `cols div 8 − 1`, the Y end `rows`. -/
def initPart3 (cfg : Cfg) : List Micro :=
  [.send (.fixed (.startEndXPosition 0 (BitVec.ofNat 8 (cfg.width / 8 - 1)))),
   .send (.fixed (.startEndYPosition 0 cfg.rows))]

/-- RESET (R192). -/
def resetSteps (p : Params) (cfg : Cfg) : List Micro :=
  [.resetPulse, .send (.fixed .softReset), .waitBusy, .setSeq .initialized]
    ++ (initPart1 p cfg ++ (initPart2 p cfg ++ (initPart3 cfg ++ [.finishReset])))

/-- UPDATE (R199), on the bytes that are sent. -/
def updateSteps (p : Params) (black red : List Byte) : List Micro :=
  [.setSeq .updating,
   .send (.fixed (.xAddress 0)),
   .send (.fixed (.yAddress 0)),
   .send (.buffer (.writeBlackData black)),
   .send (.fixed (.xAddress 0)),
   .send (.fixed (.yAddress 0)),
   .send (.buffer (.writeRedData red)),
   .send (.fixed (.updateDisplayOption2 p.updateOption2Value)),
   .send (.fixed .updateDisplay),
   .delay p.updateSettleMs,
   .waitBusy,
   .finishUpdate black red]

/-- DEEP_SLEEP (R203). -/
def deepSleepSteps : List Micro := [.send (.fixed (.deepSleepMode .preserveRam)), .finishSleep]

/-- EXEC (R206). -/
def execSteps (c : Command) : List Micro := [.send (.fixed c), .finishExec]

/-- EXEC_BUF (R207). -/
def execBufSteps (c : BufCommand) : List Micro := [.send (.buffer c), .finishExec]

/-- WAIT (R208). -/
def waitSteps : List Micro := [.waitBusy, .finish]

/-- STATUS (R212). -/
def statusSteps : List Micro := [.finishStatus]

/-- CLEAR (spec/42_framebuffer.md R231). -/
def clearSteps (c : Color) : List Micro := [.fill (fillPattern c).1 (fillPattern c).2, .finish]

/-- SET_PIXEL (R240). -/
def setPixelSteps (px : Pixel) : List Micro := [.pixel px, .finish]

/-- DRAW_PIXELS (R242): the records in list order. -/
def drawPixelsSteps (pxs : List Pixel) : List Micro := pxs.map Micro.pixel ++ [.finish]

/-- PLANE_WRITE (R244). -/
def planeWriteSteps (p : Plane) (i : Nat) (v : Byte) : List Micro := [.writeByte p i v, .finish]

/-- PLANE_READ (R245). -/
def planeReadSteps (p : Plane) (i : Nat) : List Micro := [.finishRead p i]

/-- The step list of a request in a state. Its length and order do not change while the request runs. A wire
command is no request and has no step list of its own. -/
def stepsOf (s : State) (i : Instr) : List Micro :=
  match i with
  | .reset => resetSteps s.params s.cfg
  | .update black red => updateSteps s.params (black.take s.cfg.planeLen) (red.take s.cfg.planeLen)
  | .deepSleep => deepSleepSteps
  | .status => statusSteps
  | .exec c => execSteps c
  | .execBuf c => execBufSteps c
  | .wait => waitSteps
  | .clear c => clearSteps c
  | .setPixel x y c => setPixelSteps { x := x, y := y, color := c }
  | .drawPixels pxs => drawPixelsSteps pxs
  | .gfxUpdate => updateSteps s.params (s.planeBytes .black) (s.planeBytes .red)
  | .planeWrite p idx v => planeWriteSteps p idx.toNat v
  | .planeRead p idx => planeReadSteps p idx.toNat
  | .driverOutputControl _ _ | .gateDrivingVoltage _ | .sourceDrivingVoltage _ _ _ | .boosterEnable _ _ _ _
  | .gateScanStartPosition _ | .deepSleepMode _ | .dataEntryMode _ _ | .softReset | .updateDisplay
  | .updateDisplayOption2 _ | .writeBlackData _ | .writeRedData _ | .writeVcom _ | .writeLut _ | .dummyLinePeriod _
  | .gateLineWidth _ | .borderWaveform _ | .startEndXPosition _ _ | .startEndYPosition _ _ | .xAddress _
  | .yAddress _ | .analogBlockControl _ | .digitalBlockControl _ => []

/-! ### The checks before the first step (R190, spec/60_exceptions.md R293) -/

/-- The plane-port index check (spec/42_framebuffer.md R244, R245). -/
def planeIndexFault (cfg : Cfg) (index : Half) : Option FaultRecord :=
  if index.toNat < cfg.planeLen then none else some { code := .argOutOfRange, info := .planeIndex index }

/-- The buffer length check of UPDATE (spec/41_sequencer.md R200). -/
def shortBufferFault (cfg : Cfg) (black red : List Byte) : Option FaultRecord :=
  if black.length < cfg.planeLen ∨ red.length < cfg.planeLen then
    some { code := .contractViolation, info := .shortBuffer black.length red.length cfg.planeLen }
  else none

/-- The per-request checks (R190 check 2; R244, R245). -/
def ownFault (s : State) (i : Instr) : Option FaultRecord :=
  match i with
  | .update black red => shortBufferFault s.cfg black red
  | .exec c => unimplementedFault s.params (.fixed c)
  | .planeWrite _ idx _ => planeIndexFault s.cfg idx
  | .planeRead _ idx => planeIndexFault s.cfg idx
  | .reset | .deepSleep | .status | .execBuf _ | .wait | .clear _ | .setPixel _ _ _ | .drawPixels _ | .gfxUpdate => none
  | .driverOutputControl _ _ | .gateDrivingVoltage _ | .sourceDrivingVoltage _ _ _ | .boosterEnable _ _ _ _
  | .gateScanStartPosition _ | .deepSleepMode _ | .dataEntryMode _ _ | .softReset | .updateDisplay
  | .updateDisplayOption2 _ | .writeBlackData _ | .writeRedData _ | .writeVcom _ | .writeLut _ | .dummyLinePeriod _
  | .gateLineWidth _ | .borderWaveform _ | .startEndXPosition _ _ | .startEndYPosition _ _ | .xAddress _
  | .yAddress _ | .analogBlockControl _ | .digitalBlockControl _ => none

/-- The range check of the command a step encodes (R190 check 3). -/
def stepRangeFault (p : Params) (m : Micro) : Option FaultRecord :=
  match m.command with
  | some c => rangeFault p c
  | none => none

/-- The first check a decoded request fails, if any: its own checks, then the ranges of every command it will
encode, in step order (R190, R293). -/
def requestFault (s : State) (i : Instr) : Option FaultRecord :=
  match ownFault s i with
  | some f => some f
  | none => (stepsOf s i).findSome? (stepRangeFault s.params)

/-! ### Running -/

/-- What the block is after a step: the next position if the step completed, else as the step left it. -/
def Flow.settle : Flow → State
  | .go s => s.nextPos
  | .ended s => s
  | .held s => s

/-- One step of the request in progress (spec/10_state.md R31); at a busy-wait, one poll (spec/41_sequencer.md R205). -/
def State.tick (s : State) : State :=
  match s.pos with
  | .idle => s
  | .running req _ k =>
    match (stepsOf s req)[k]? with
    | none => { s with pos := .idle }
    | some m => (s.doMicro m).settle

/-- The steps of a list, one after another, until the request ends or a busy-wait holds it. -/
def State.runSteps : List Micro → State → State
  | [], s => { s with pos := .idle }
  | m :: ms, s =>
    match s.doMicro m with
    | .go s' => State.runSteps ms s'.nextPos
    | .ended s' => s'
    | .held s' => s'

/-- An accepted request: the checks, the misuse test, then the step list (R190). -/
def State.perform (i : Instr) (s : State) : State :=
  match requestFault s i with
  | some f => s.raiseFault f
  | none => State.runSteps (stepsOf s i) (s.start i)

/-- The meaning of a host request: accepted only when the block is not halted and `st.pos = IDLE` (R190). -/
def runRequest (i : Instr) (s : State) : Host.Outcome State Fault Refusal :=
  match s.fault with
  | some r => .fault (.halted r)
  | none =>
    match s.pos with
    | .running _ _ _ => .refused .requestInProgress
    | .idle => .next (s.perform i)

/-- The meaning of a wire command: one `encode_and_send` (spec/40_commands.md R141). -/
def runWire (c : WireCmd) (s : State) : Host.Outcome State Fault Refusal :=
  match s.fault with
  | some r => .fault (.halted r)
  | none => .next (s.encodeAndSend c).state

end Sys2Proof.Machine
end

