-- ==== Sys2Proof/Machine/Framebuffer.lean ====
section
/-! DEFINITION. The meanings of the framebuffer requests (spec/42_framebuffer.md): CLEAR, SET_PIXEL, DRAW_PIXELS,
GFX_UPDATE, PLANE_WRITE and PLANE_READ. Each runs its step list (Sequence.lean). -/

namespace Sys2Proof.Machine

/-- CLEAR (R231). -/
def execClear (color : Color) (s : State) : Host.Outcome State Fault Refusal :=
  runRequest (.clear color) s

/-- SET_PIXEL (R240). -/
def execSetPixel (x y : Coord) (color : Color) (s : State) : Host.Outcome State Fault Refusal :=
  runRequest (.setPixel x y color) s

/-- DRAW_PIXELS (R242). -/
def execDrawPixels (pixels : List Pixel) (s : State) : Host.Outcome State Fault Refusal :=
  runRequest (.drawPixels pixels) s

/-- GFX_UPDATE (R243). -/
def execGfxUpdate (s : State) : Host.Outcome State Fault Refusal :=
  runRequest .gfxUpdate s

/-- PLANE_WRITE (R244). -/
def execPlaneWrite (plane : Plane) (index : Half) (value : Byte) (s : State) : Host.Outcome State Fault Refusal :=
  runRequest (.planeWrite plane index value) s

/-- PLANE_READ (R245). -/
def execPlaneRead (plane : Plane) (index : Half) (s : State) : Host.Outcome State Fault Refusal :=
  runRequest (.planeRead plane index) s

end Sys2Proof.Machine
end

