-- ==== Sys2Proof/Machine/Sequencer.lean ====
section
/-! DEFINITION. The meanings of the sequencer requests (spec/41_sequencer.md): RESET, UPDATE, DEEP_SLEEP, STATUS, EXEC,
EXEC_BUF and WAIT. Each runs its step list (Sequence.lean) to its end, or to a busy-wait that holds. -/

namespace Sys2Proof.Machine

/-- RESET (R192). -/
def execReset (s : State) : Host.Outcome State Fault Refusal :=
  runRequest .reset s

/-- UPDATE (R199, R200). -/
def execUpdate (black red : List Byte) (s : State) : Host.Outcome State Fault Refusal :=
  runRequest (.update black red) s

/-- DEEP_SLEEP (R203). -/
def execDeepSleep (s : State) : Host.Outcome State Fault Refusal :=
  runRequest .deepSleep s

/-- STATUS (R212). -/
def execStatus (s : State) : Host.Outcome State Fault Refusal :=
  runRequest .status s

/-- EXEC (R206). -/
def execExec (c : Command) (s : State) : Host.Outcome State Fault Refusal :=
  runRequest (.exec c) s

/-- EXEC_BUF (R207). -/
def execExecBuf (c : BufCommand) (s : State) : Host.Outcome State Fault Refusal :=
  runRequest (.execBuf c) s

/-- WAIT (R208). -/
def execWait (s : State) : Host.Outcome State Fault Refusal :=
  runRequest .wait s

end Sys2Proof.Machine
end

