-- ==== Sys2Proof/Machine/Wire.lean ====
section
/-! DEFINITION. The meanings of the wire commands (spec/40_commands.md R142 to R164): each is one
`encode_and_send` (R141) of its command, with the opcode, layout and ranges of Decode.lean and Operands.lean. -/

namespace Sys2Proof.Machine

/-- DriverOutputControl (R142). -/
def execDriverOutputControl (gateLines : Half) (scan : Byte) (s : State) : Host.Outcome State Fault Refusal :=
  runWire (.fixed (.driverOutputControl gateLines scan)) s

/-- GateDrivingVoltage (R143). -/
def execGateDrivingVoltage (v : Byte) (s : State) : Host.Outcome State Fault Refusal :=
  runWire (.fixed (.gateDrivingVoltage v)) s

/-- SourceDrivingVoltage (R144). -/
def execSourceDrivingVoltage (vsh1 vsh2 vsl : Byte) (s : State) : Host.Outcome State Fault Refusal :=
  runWire (.fixed (.sourceDrivingVoltage vsh1 vsh2 vsl)) s

/-- BoosterEnable (R145). UNIMPLEMENTED_COMMAND unless `ADMIT_GK_EXTRA`. -/
def execBoosterEnable (p1 p2 p3 dur : Byte) (s : State) : Host.Outcome State Fault Refusal :=
  runWire (.fixed (.boosterEnable p1 p2 p3 dur)) s

/-- GateScanStartPosition (R146). UNIMPLEMENTED_COMMAND unless `ADMIT_GK_EXTRA`, then the range check. -/
def execGateScanStartPosition (pos : Half) (s : State) : Host.Outcome State Fault Refusal :=
  runWire (.fixed (.gateScanStartPosition pos)) s

/-- DeepSleepMode (R147). -/
def execDeepSleepMode (mode : SleepMode) (s : State) : Host.Outcome State Fault Refusal :=
  runWire (.fixed (.deepSleepMode mode)) s

/-- DataEntryMode (R148). -/
def execDataEntryMode (mode : EntryMode) (axis : Axis) (s : State) : Host.Outcome State Fault Refusal :=
  runWire (.fixed (.dataEntryMode mode axis)) s

/-- SoftReset (R149). No DATA, and no busy-wait of its own. -/
def execSoftReset (s : State) : Host.Outcome State Fault Refusal :=
  runWire (.fixed (.softReset)) s

/-- UpdateDisplay (R150). No DATA, no delay and no busy-wait of its own. -/
def execUpdateDisplay (s : State) : Host.Outcome State Fault Refusal :=
  runWire (.fixed (.updateDisplay)) s

/-- UpdateDisplayOption2 (R151). -/
def execUpdateDisplayOption2 (v : Byte) (s : State) : Host.Outcome State Fault Refusal :=
  runWire (.fixed (.updateDisplayOption2 v)) s

/-- WriteBlackData (R160). -/
def execWriteBlackData (buf : List Byte) (s : State) : Host.Outcome State Fault Refusal :=
  runWire (.buffer (.writeBlackData buf)) s

/-- WriteRedData (R161). -/
def execWriteRedData (buf : List Byte) (s : State) : Host.Outcome State Fault Refusal :=
  runWire (.buffer (.writeRedData buf)) s

/-- WriteVCOM (R152). -/
def execWriteVcom (v : Byte) (s : State) : Host.Outcome State Fault Refusal :=
  runWire (.fixed (.writeVcom v)) s

/-- WriteLUT (R162). ARG_OUT_OF_RANGE for a wrong length under `LUT_STRICT`. -/
def execWriteLut (buf : List Byte) (s : State) : Host.Outcome State Fault Refusal :=
  runWire (.buffer (.writeLut buf)) s

/-- DummyLinePeriod (R153). -/
def execDummyLinePeriod (v : Byte) (s : State) : Host.Outcome State Fault Refusal :=
  runWire (.fixed (.dummyLinePeriod v)) s

/-- GateLineWidth (R154). -/
def execGateLineWidth (v : Byte) (s : State) : Host.Outcome State Fault Refusal :=
  runWire (.fixed (.gateLineWidth v)) s

/-- BorderWaveform (R155). -/
def execBorderWaveform (v : Byte) (s : State) : Host.Outcome State Fault Refusal :=
  runWire (.fixed (.borderWaveform v)) s

/-- StartEndXPosition (R156). -/
def execStartEndXPosition (first last : Byte) (s : State) : Host.Outcome State Fault Refusal :=
  runWire (.fixed (.startEndXPosition first last)) s

/-- StartEndYPosition (R157). -/
def execStartEndYPosition (first last : Half) (s : State) : Host.Outcome State Fault Refusal :=
  runWire (.fixed (.startEndYPosition first last)) s

/-- XAddress (R158). -/
def execXAddress (a : Byte) (s : State) : Host.Outcome State Fault Refusal :=
  runWire (.fixed (.xAddress a)) s

/-- YAddress (R159). -/
def execYAddress (a : Half) (s : State) : Host.Outcome State Fault Refusal :=
  runWire (.fixed (.yAddress a)) s

/-- AnalogBlockControl (R163). -/
def execAnalogBlockControl (v : Byte) (s : State) : Host.Outcome State Fault Refusal :=
  runWire (.fixed (.analogBlockControl v)) s

/-- DigitalBlockControl (R164). -/
def execDigitalBlockControl (v : Byte) (s : State) : Host.Outcome State Fault Refusal :=
  runWire (.fixed (.digitalBlockControl v)) s

end Sys2Proof.Machine
end

