-- ==== Sys2Proof/Machine/Dispatch.lean ====
section
/-! DEFINITION. The dispatch: one arm per instruction, wire commands first, host requests after them. -/

namespace Sys2Proof.Machine

def exec (i : Instr) (s : State) : Host.Outcome State Fault Refusal :=
  match i with
  | .driverOutputControl gateLines scan => Sys2Proof.Machine.execDriverOutputControl gateLines scan s
  | .gateDrivingVoltage v => Sys2Proof.Machine.execGateDrivingVoltage v s
  | .sourceDrivingVoltage vsh1 vsh2 vsl => Sys2Proof.Machine.execSourceDrivingVoltage vsh1 vsh2 vsl s
  | .boosterEnable p1 p2 p3 dur => Sys2Proof.Machine.execBoosterEnable p1 p2 p3 dur s
  | .gateScanStartPosition pos => Sys2Proof.Machine.execGateScanStartPosition pos s
  | .deepSleepMode mode => Sys2Proof.Machine.execDeepSleepMode mode s
  | .dataEntryMode mode axis => Sys2Proof.Machine.execDataEntryMode mode axis s
  | .softReset => Sys2Proof.Machine.execSoftReset s
  | .updateDisplay => Sys2Proof.Machine.execUpdateDisplay s
  | .updateDisplayOption2 v => Sys2Proof.Machine.execUpdateDisplayOption2 v s
  | .writeBlackData buf => Sys2Proof.Machine.execWriteBlackData buf s
  | .writeRedData buf => Sys2Proof.Machine.execWriteRedData buf s
  | .writeVcom v => Sys2Proof.Machine.execWriteVcom v s
  | .writeLut buf => Sys2Proof.Machine.execWriteLut buf s
  | .dummyLinePeriod v => Sys2Proof.Machine.execDummyLinePeriod v s
  | .gateLineWidth v => Sys2Proof.Machine.execGateLineWidth v s
  | .borderWaveform v => Sys2Proof.Machine.execBorderWaveform v s
  | .startEndXPosition first last => Sys2Proof.Machine.execStartEndXPosition first last s
  | .startEndYPosition first last => Sys2Proof.Machine.execStartEndYPosition first last s
  | .xAddress a => Sys2Proof.Machine.execXAddress a s
  | .yAddress a => Sys2Proof.Machine.execYAddress a s
  | .analogBlockControl v => Sys2Proof.Machine.execAnalogBlockControl v s
  | .digitalBlockControl v => Sys2Proof.Machine.execDigitalBlockControl v s
  | .reset => Sys2Proof.Machine.execReset s
  | .update black red => Sys2Proof.Machine.execUpdate black red s
  | .deepSleep => Sys2Proof.Machine.execDeepSleep s
  | .status => Sys2Proof.Machine.execStatus s
  | .exec c => Sys2Proof.Machine.execExec c s
  | .execBuf c => Sys2Proof.Machine.execExecBuf c s
  | .wait => Sys2Proof.Machine.execWait s
  | .clear color => Sys2Proof.Machine.execClear color s
  | .setPixel x y color => Sys2Proof.Machine.execSetPixel x y color s
  | .drawPixels pixels => Sys2Proof.Machine.execDrawPixels pixels s
  | .gfxUpdate => Sys2Proof.Machine.execGfxUpdate s
  | .planeWrite plane index value => Sys2Proof.Machine.execPlaneWrite plane index value s
  | .planeRead plane index => Sys2Proof.Machine.execPlaneRead plane index s

end Sys2Proof.Machine
end

