-- ==== Sys2Proof/Machine/Fetch.lean ====
section
/-! DEFINITION. Fetching: how the block takes its next request from the host (spec/30_encoding.md R110, R113,
R122, spec/41_sequencer.md R190), and how a table word is placed where the next step takes it. -/

namespace Sys2Proof.Machine

/-- What an idle block finds when it looks for a request. -/
inductive Fetched where
  /-- The host has issued nothing: the block waits (spec/70_reset_and_hazards.md R330, R351). -/
  | nothing
  /-- The byte string is an illegal request (R122); the state is the one after its fault. -/
  | illegal (s : State)
  /-- A request, and the state with its bytes taken from the host's queue. -/
  | request (i : Instr) (s : State)
  deriving DecidableEq, Repr

/-- The host's queue after a request's bytes are taken. Bytes past the end of the request stay as the next byte
string: the length comes from the code and the length fields alone (R113). DESIGN CHOICE, log 4. -/
def afterRequest (rest : List Byte) (later : List (List Byte)) : List (List Byte) :=
  if rest.isEmpty then later else rest :: later

/-- Take the next request (R190 check 1): a byte string the decoder rejects raises `Fault(ILLEGAL_REQUEST, bytes)`. -/
def State.fetch (s : State) : Fetched :=
  match s.inbox with
  | [] => .nothing
  | bytes :: later =>
    match decode s.params bytes with
    | .error _ =>
      .illegal ({ s with inbox := later }.raiseFault { code := .illegalRequest, info := .requestBytes bytes })
    | .ok (i, rest) => .request i { s with inbox := afterRequest rest later }

/-- The position at which the next step is the `encode_and_send` of a wire command: the first step of EXEC or
EXEC_BUF of it (spec/41_sequencer.md R206, R207). -/
def wirePos : WireCmd → Pos
  | .fixed c => .running (.exec c) false 0
  | .buffer c => .running (.execBuf c) false 0

/-- The state whose next step takes the table word (log 2): a request's bytes stand first in the host's queue, and
a wire command stands as the first step of the request that carries it. -/
def State.placeWord (s : State) (nbits w : Nat) : State :=
  match decode Params.standard (paddedBytes nbits w) with
  | .error .unknownCode =>
    match tableWireCmd nbits w with
    | some c => { s with fault := none, pos := wirePos c }
    | none => { s with fault := none, pos := .idle, inbox := wordBytes (nbits / 8) w :: s.inbox }
  | .error _ => { s with fault := none, pos := .idle, inbox := paddedBytes nbits w :: s.inbox }
  | .ok (_, rest) =>
    { s with fault := none, pos := .idle,
             inbox := (paddedBytes nbits w).take ((paddedBytes nbits w).length - rest.length) :: s.inbox }

end Sys2Proof.Machine
end

