-- ==== Sys2Proof/Machine/Step.lean ====
section
/-! DEFINITION. One step of the machine. A halted block takes none (spec/60_exceptions.md R295, R296). A request in
progress takes its next step, which at a busy-wait is one poll (spec/10_state.md R31, spec/41_sequencer.md R205). An
idle block takes the host's next request and runs it to its end or to a hold (R190). -/

namespace Sys2Proof.Machine

/-- One step (log 3). An idle block with no request to take stays as it is (log 18). -/
def step (s : State) : Host.Outcome State Fault Refusal :=
  match s.fault with
  | some r => .fault (.halted r)
  | none =>
    match s.pos with
    | .running _ _ _ => .next s.tick
    | .idle =>
      match s.fetch with
      | .nothing => .next s
      | .illegal s' => .next s'
      | .request i s' => exec i s'

/-- `s` with a table word placed so that the next step runs exactly it. -/
def State.withFetchWord (s : State) (nbits w : Nat) : State := s.placeWord nbits w

end Sys2Proof.Machine
end

