-- ==== Sys2Proof/Machine/Build.lean ====
section
/-! DEFINITION. The configuration builder (spec/43_configuration.md): not a request, but the one-time load of `cfg`
before the block is instantiated. -/

namespace Sys2Proof.Machine

/-- A builder option (R270). -/
inductive BuildOption where
  | dimensions (rows cols : Half)
  | rotation (r : Rotation)
  | dummyLinePeriod (v : Byte)
  | gateLineWidth (v : Byte)
  | vcom (v : Byte)
  | lut (bytes : List Byte)
  | dataEntryMode (mode : EntryMode) (axis : Axis)
  deriving DecidableEq, Repr

/-- What a build gives (R270): a configuration, ConfigError (R272), or a fault. -/
inductive BuildResult where
  | built (cfg : Cfg)
  | configError
  | fault (record : FaultRecord)
  deriving DecidableEq, Repr

/-- The options gathered so far: the dimensions if given, and a configuration whose other fields hold the given
value or the default. -/
structure Draft where
  dims : Option (Half × Half)
  cfg  : Cfg
  deriving DecidableEq, Repr

/-- No option given: every field but the geometry at its default (R270). -/
def Draft.empty : Draft := { dims := none, cfg := { rows := 0, cols := 0 } }

/-- Take one option; a later one of its kind replaces an earlier one (R270, D44). -/
def Draft.add (d : Draft) : BuildOption → Draft
  | .dimensions rows cols => { dims := some (rows, cols), cfg := { d.cfg with rows := rows, cols := cols } }
  | .rotation r => { d with cfg := { d.cfg with rotation := r } }
  | .dummyLinePeriod v => { d with cfg := { d.cfg with dummyLinePeriod := v } }
  | .gateLineWidth v => { d with cfg := { d.cfg with gateLineWidth := v } }
  | .vcom v => { d with cfg := { d.cfg with vcom := v } }
  | .lut bytes => { d with cfg := { d.cfg with lut := some bytes } }
  | .dataEntryMode mode axis => { d with cfg := { d.cfg with dataEntryMode := mode, incrementAxis := axis } }

/-- The lookup table of a configuration is absent or of a legal length (R270). -/
def cfgLutOk (p : Params) (cfg : Cfg) : Bool :=
  match cfg.lut with
  | none => true
  | some l => lutOk p l

/-- `build(options)` (R270), the checks in the order of R271. -/
def build (p : Params) (options : List BuildOption) : BuildResult :=
  let d := options.foldl Draft.add Draft.empty
  match d.dims with
  | none => .configError
  | some (rows, cols) =>
    if !geometryOk p rows cols then
      .fault { code := .geometryInvalid, info := .geometry rows cols }
    else if p.maxDummyLinePeriod < d.cfg.dummyLinePeriod.toNat then
      .fault { code := .argOutOfRange, info := .buildDummyLinePeriod d.cfg.dummyLinePeriod }
    else if !cfgLutOk p d.cfg then
      .fault { code := .argOutOfRange, info := .buildLut (d.cfg.lut.getD []) }
    else .built d.cfg

/-- A configuration register set the builder can give (R34: "Illegal values do not exist after build"). -/
def Cfg.legal (p : Params) (cfg : Cfg) : Bool :=
  geometryOk p cfg.rows cfg.cols && decide (cfg.dummyLinePeriod.toNat ≤ p.maxDummyLinePeriod) && cfgLutOk p cfg

/-- The block instantiated from a built configuration (R275). -/
def instantiate (p : Params) (cfg : Cfg) : State := State.powerOn p cfg

end Sys2Proof.Machine
end

