-- ==== Sys2Proof/Safety.lean ====
section
/-! DEFINITION. What claims are stated in: well-formed parameters, the invariant of the machine, the premises about
the transport's and the controller's draws, how a run ends and what is observed of it (spec/70_reset_and_hazards.md R351). -/

namespace Sys2Proof.Machine

/-! ### Parameters -/

/-- Parameters under which the encodings are exact: distinct opcodes (spec/30_encoding.md R104), distinct sleep
codes (R111), and an X window end that fits its byte (spec/41_sequencer.md R197). The defaults are so. -/
def paramsOk (p : Params) : Bool :=
  p.opc.distinct && p.sleepCode.distinct && decide (p.maxSourceOutputs ≤ 2048)

/-! ### The invariant -/

/-- The requests during which `st.seq` may be UPDATING (spec/10_state.md R33). -/
def isUpdate (i : Instr) : Prop := (∃ black red, i = .update black red) ∨ i = .gfxUpdate

/-- The transient values of `st.seq` belong to the requests that write them: between requests there is none
(R33), and a misused request has none (spec/41_sequencer.md R191). -/
def State.transientOk (s : State) : Prop :=
  match s.pos with
  | .idle => s.seq ≠ .initialized ∧ s.seq ≠ .updating
  | .running req misused _ =>
    (s.seq = .initialized → req = .reset ∧ misused = false) ∧ (s.seq = .updating → isUpdate req ∧ misused = false)

/-- The position is IDLE or names a step of a request that passed its checks (R31, R190); only a request that is
illegal in some state can be misused (R191). -/
def State.positionOk (s : State) : Prop :=
  match s.pos with
  | .idle => True
  | .running req misused k =>
    k < (stepsOf s req).length ∧ requestFault s req = none ∧ (misused = true → ∃ q, legalIn req q = false)

/-- A plane is in canonical form and within the plane's length (R39). -/
def planeOk (cfg : Cfg) (m : Memory) : Prop := Memory.wf m = true ∧ Memory.below cfg.planeLen m = true

/-- An event the block may record: no empty DATA (spec/00_scope.md R13), and only opcodes of R104 as commands
(spec/30_encoding.md R120). -/
def eventOk (o : Opc) : Event → Prop
  | .cmd b | .cmdFailed b _ => ∃ k, b = o.byte k
  | .data bs | .dataFailed bs _ => bs ≠ []
  | .resetPulse | .waitBusy | .delay _ => True

/-- What every step keeps. -/
structure State.Inv (s : State) : Prop where
  /-- The configuration registers are ones the builder gives (R34). -/
  cfgLegal : Cfg.legal s.params s.cfg = true
  blackOk : planeOk s.cfg s.black
  redOk : planeOk s.cfg s.red
  position : s.positionOk
  transient : s.transientOk
  /-- A halted block is IDLE (spec/60_exceptions.md R295). -/
  faultIdle : s.fault ≠ none → s.pos = .idle
  events : ∀ e ∈ s.trace, eventOk s.params.opc e
  /-- While the controller is lost, nothing is known of it (R45). -/
  lostUnknown : s.ctrl.lost = true →
    s.ctrl.bwRam = none ∧ s.ctrl.redRam = none ∧ s.ctrl.asleep = none ∧ s.ctrl.lut = none
  /-- During a misused request the controller is lost (spec/70_reset_and_hazards.md R342). -/
  misusedLost : s.pos.misused = true → s.ctrl.lost = true
  /-- In ERRORED the controller is lost: only a RESET that completes leaves either (R45, spec/41_sequencer.md R209). -/
  erroredLost : s.seq = .errored → s.ctrl.lost = true

/-! ### Several steps -/

/-- `n` steps of the machine, stopping where a step stops. -/
def stepN : Nat → State → Host.Outcome State Fault Refusal
  | 0, s => .next s
  | n + 1, s =>
    match step s with
    | .next t => stepN n t
    | .fault f => .fault f
    | .refused r => .refused r

/-! ### Premises about the draws -/

/-- The next `n` sends succeed (R52). -/
def State.sendsOk (s : State) (n : Nat) : Prop := ∀ k, k < n → s.sendResult (s.sendCount + k) = none

/-- The next poll sees the busy input clear (R51). -/
def State.busyClear (s : State) : Prop := s.busyLevel s.pollCount = false

/-- The block takes requests: not halted, and IDLE (spec/41_sequencer.md R190). -/
def State.accepting (s : State) : Prop := s.fault = none ∧ s.pos = .idle

/-- The fairness assumption for the busy-wait at hand: some later poll sees the busy input clear
(spec/70_reset_and_hazards.md R343). -/
def State.busyFair (s : State) : Prop := ∃ n, s.busyLevel (s.pollCount + n) = false

/-! ### Events -/

/-- The events of one frame that is sent without error: CMD, and DATA when there is data (spec/30_encoding.md R101). -/
def frameEvents (op : Byte) (data : List Byte) : List Event :=
  .cmd op :: (if data.isEmpty then [] else [.data data])

/-! ### The end of a run and the observation (R351) -/

/-- (a) A normal end: IDLE, and no request is left. -/
def State.normalEnd (s : State) : Prop := s.fault = none ∧ s.pos = .idle ∧ s.inbox = []

/-- (b) A bad end. -/
def State.badEnd (s : State) : Prop := s.fault ≠ none

/-- A request held in a busy-wait; such a run has not ended (R351). -/
def State.heldInWait (s : State) : Prop :=
  match s.pos with
  | .idle => False
  | .running req _ k => (stepsOf s req)[k]? = some .waitBusy

/-- A trace with every run of consecutive DATA events joined: one DATA event equals any split of it (R50, D28). -/
def joinData : List Event → List Event
  | [] => []
  | e :: es =>
    match e, joinData es with
    | .data a, .data b :: r => .data (a ++ b) :: r
    | e, r => e :: r

/-- The pieces of at most `n` bytes that a transport sends a byte list in, one call each (R8 `TRANSPORT_CHUNK`); the first
argument bounds the number of pieces. -/
def chunks (n : Nat) : Nat → List Byte → List (List Byte)
  | 0, bs => [bs]
  | fuel + 1, bs => if bs.length ≤ n then [bs] else bs.take n :: chunks n fuel (bs.drop n)

/-- An event as the transport carries it out: DATA in chunks, every other event as it is (spec/10_state.md R50). -/
def Event.chunked (n : Nat) : Event → List Event
  | .data bs => (chunks n bs.length bs).map .data
  | .cmd b => [.cmd b]
  | .resetPulse => [.resetPulse]
  | .waitBusy => [.waitBusy]
  | .delay ms => [.delay ms]
  | .cmdFailed b e => [.cmdFailed b e]
  | .dataFailed bs e => [.dataFailed bs e]

/-- The trace as the transport carries it out. -/
def State.transportTrace (s : State) : List Event := s.trace.flatMap (Event.chunked s.params.transportChunk)

/-- The electrical level of the busy line at poll number `n`: high for busy when it is active high (R51,
`BUSY_ACTIVE_HIGH`). The block sees only `busyLevel`. -/
def State.busyPin (s : State) (n : Nat) : Bool := s.busyLevel n == s.params.busyActiveHigh

/-- The observation of a run (R351). -/
structure Observation where
  trace      : List Event
  blackBytes : List Byte
  redBytes   : List Byte
  seq        : SeqState
  misuse     : Bool
  lastErr    : Option TransportError
  fault      : Option FaultRecord
  responses  : List Response
  deriving DecidableEq, Repr

/-- What is observed of a state (R351). -/
def State.observe (s : State) : Observation :=
  { trace := joinData s.trace, blackBytes := s.planeBytes .black, redBytes := s.planeBytes .red, seq := s.seq,
    misuse := s.misuse, lastErr := s.lastErr, fault := s.fault, responses := s.responses }

end Sys2Proof.Machine
end

