-- ==== Sys2Proof/Certificates/Slice0/Obligations.lean ====
section
/-! DEFINITION. The statements for the provers. The helpers in Sys2Proof.Claims name the events a rule lists and the
states a rule describes; each obligation's docstring says which rules of spec/ it formalises. Wherever a statement
names a whole next state, the counts of sends and polls (log 5, 7), the list of responses (log 23), and the
controller's `longOp` and `lost` with what they do to the controller fields (log 13) are the model's own. -/

namespace Sys2Proof.Claims

open Sys2Proof.Machine

/-- The events of a bracketed step of R196. -/
def optionalEvents {α : Type} (o : Option α) (events : α → List Event) : List Event :=
  match o with
  | some a => events a
  | none => []

/-- The state after one frame with data is sent without error, and nothing else. (`onFrame`: log 13.) -/
def frameSent (op : Byte) (data : List Byte) (s : State) : State :=
  { s with trace := s.trace ++ [.cmd op, .data data], sendCount := s.sendCount + 2, ctrl := s.ctrl.onFrame }

/-- The state after the bare opcode of a long operation is sent without error, and nothing else. (`longOp`: log 13;
which commands begin a long operation: log 19.) -/
def longOpSent (op : Byte) (s : State) : State :=
  { s with trace := s.trace ++ [.cmd op], sendCount := s.sendCount + 1, ctrl := { s.ctrl.onFrame with longOp := true } }

/-- The state after a fault, and nothing else (spec/60_exceptions.md R295). -/
def faulted (code : ErrorCode) (info : FaultInfo) (s : State) : State :=
  { s with fault := some { code := code, info := info }, pos := .idle }

/-- The state after a transport error that ended the request (spec/41_sequencer.md R210), but for the trace and the
number of sends. -/
def errored (e : TransportError) (s : State) : State :=
  { s with seq := .errored, lastErr := some e, pos := .idle, responses := s.responses ++ [.errTransport e],
           ctrl := { s.ctrl with bwRam := none, redRam := none, asleep := none, lut := none, lost := true } }

/-- The initialisation events of RESET (spec/41_sequencer.md R195, R196, R197), in the order of R198. -/
def initEvents (p : Params) (cfg : Cfg) : List Event :=
  [.cmd p.opc.analogBlockControl, .data [p.analogBlockValue],
   .cmd p.opc.digitalBlockControl, .data [p.digitalBlockValue],
   .cmd p.opc.driverOutputControl, .data [lo8 cfg.rows, hi8 cfg.rows, p.driverScan]]
  ++ optionalEvents p.initGateVoltage (fun v => [.cmd p.opc.gateDrivingVoltage, .data [v]])
  ++ optionalEvents p.initSourceVoltage (fun v => [.cmd p.opc.sourceDrivingVoltage, .data [v.1, v.2.1, v.2.2]])
  ++ [.cmd p.opc.dummyLinePeriod, .data [cfg.dummyLinePeriod],
      .cmd p.opc.gateLineWidth, .data [cfg.gateLineWidth],
      .cmd p.opc.writeVcom, .data [cfg.vcom]]
  ++ optionalEvents p.initBorder (fun v => [.cmd p.opc.borderWaveform, .data [v]])
  ++ optionalEvents cfg.lut (fun l => frameEvents p.opc.writeLut l)
  ++ [.cmd p.opc.dataEntryMode, .data [entryByte cfg.dataEntryMode cfg.incrementAxis],
      .cmd p.opc.startEndXPosition, .data [0, BitVec.ofNat 8 (cfg.cols.toNat / 8 - 1)],
      .cmd p.opc.startEndYPosition, .data [0, 0, lo8 cfg.rows, hi8 cfg.rows]]

/-- The 17 events of UPDATE (R202). -/
def updateEvents (p : Params) (black red : List Byte) : List Event :=
  [.cmd p.opc.xAddress, .data [0], .cmd p.opc.yAddress, .data [0, 0], .cmd p.opc.writeBlackData, .data black,
   .cmd p.opc.xAddress, .data [0], .cmd p.opc.yAddress, .data [0, 0], .cmd p.opc.writeRedData, .data red,
   .cmd p.opc.updateDisplayOption2, .data [p.updateOption2Value], .cmd p.opc.updateDisplay,
   .delay p.updateSettleMs, .waitBusy]

/-- The state after a RESET without error (R192; spec/10_state.md R43, R44). That a RESET keeps what the controller's
RAM holds, and that its completion ends the unknown, are the model's choices (log 13, 15). -/
def resetDone (s : State) : State :=
  { s with
    seq := .ready
    lastErr := none
    busyIn := false
    pollCount := s.pollCount + 1
    sendCount := s.sendCount + (1 + (initEvents s.params s.cfg).length)
    trace := s.trace ++ ([.resetPulse, .cmd s.params.opc.softReset, .waitBusy] ++ initEvents s.params s.cfg)
    responses := s.responses ++ [.ok]
    ctrl := { bwRam := if s.ctrl.longOp then none else s.ctrl.bwRam
              redRam := if s.ctrl.longOp then none else s.ctrl.redRam
              asleep := some false
              lut := some (match s.cfg.lut with
                           | some l => .uploaded l
                           | none => .powerOnDefault)
              longOp := false
              lost := false } }

/-- The state after an UPDATE without error of the bytes `black` and `red` (R199, R191; spec/10_state.md R42). The
sequencer state ends as it began: READY from READY, and unchanged when the request is misused. -/
def updateDone (black red : List Byte) (s : State) : State :=
  { s with
    misuse := s.misuse || s.seq != .ready
    lastErr := none
    busyIn := false
    pollCount := s.pollCount + 1
    sendCount := s.sendCount + 15
    trace := s.trace ++ updateEvents s.params black red
    responses := s.responses ++ [.ok]
    ctrl := { Ctrl.afterUpdate black red (if s.seq = .ready then s.ctrl.onFrame else s.ctrl.forget) with
      longOp := false } }

/-- A pixel of the planes shows the pair (0, 1), black bit 0 and red bit 1 (spec/10_state.md R46). -/
def openPair (s : State) (i k : Nat) : Prop :=
  s.readByte .black i &&& maskFromLeft k = 0 ∧ s.readByte .red i &&& maskFromLeft k ≠ 0

/-- The geometry that R35 guarantees. -/
def nativeGrid (cfg : Cfg) : Prop := cfg.cols.toNat % 8 = 0 ∧ 8 ≤ cfg.cols.toNat ∧ 1 ≤ cfg.rows.toNat

/-- `s` with another rotation. -/
def rotated (r : Rotation) (s : State) : State := { s with cfg := { s.cfg with rotation := r } }

/-- `s` behind another transport: another polarity of the busy line and another chunk size (spec/00_scope.md R8). -/
def behind (activeHigh : Bool) (chunk : Nat) (s : State) : State :=
  { s with params := { s.params with busyActiveHigh := activeHigh, transportChunk := chunk } }

/-- The byte strings that R111, R113 and R122 call illegal. -/
inductive IllegalForm (p : Params) : List Byte → Prop where
  | code (b : Byte) (rest : List Byte) :
      (∀ k : ReqKind, k.code ≠ b) → IllegalForm p (b :: rest)
  | clearColor (c : Byte) (rest : List Byte) :
      c ≠ 0 → c ≠ 1 → c ≠ 2 → IllegalForm p (0x10 :: c :: rest)
  | pixelColor (c : Byte) (x0 x1 x2 x3 y0 y1 y2 y3 : Byte) (rest : List Byte) :
      c ≠ 0 → c ≠ 1 → c ≠ 2 →
      IllegalForm p (0x11 :: x0 :: x1 :: x2 :: x3 :: y0 :: y1 :: y2 :: y3 :: c :: rest)
  | recordColor (pxs : List Pixel) (c : Byte) (n : Half) (x0 x1 x2 x3 y0 y1 y2 y3 : Byte) (rest : List Byte) :
      c ≠ 0 → c ≠ 1 → c ≠ 2 → pxs.length < n.toNat →
      IllegalForm p (0x12 :: (bytes16 n ++ (pixelBytes pxs
        ++ (x0 :: x1 :: x2 :: x3 :: y0 :: y1 :: y2 :: y3 :: c :: rest))))
  | writePlane (pl : Byte) (rest : List Byte) :
      pl ≠ 0 → pl ≠ 1 → IllegalForm p (0x14 :: pl :: rest)
  | readPlane (pl : Byte) (rest : List Byte) :
      pl ≠ 0 → pl ≠ 1 → IllegalForm p (0x15 :: pl :: rest)
  | bufOpcode (op : Byte) (rest : List Byte) :
      op ≠ p.opc.writeBlackData → op ≠ p.opc.writeRedData → op ≠ p.opc.writeLut →
      IllegalForm p (0x09 :: op :: rest)
  | execOpcode (op : Byte) (rest : List Byte) :
      (∀ k : CmdKind, k.format ≠ .fb → p.opc.byte k ≠ op) → IllegalForm p (0x08 :: op :: rest)
  | sleepCode (b : Byte) (rest : List Byte) :
      b ≠ p.sleepCode.normal → b ≠ p.sleepCode.preserveRam → b ≠ p.sleepCode.discardRam →
      IllegalForm p (0x08 :: p.opc.deepSleepMode :: b :: rest)
  | entryBits (b : Byte) (rest : List Byte) :
      8 ≤ b.toNat → IllegalForm p (0x08 :: p.opc.dataEntryMode :: b :: rest)
  | truncated (i : Instr) (n : Nat) :
      i.isRequest = true → i.wellFormed = true → n < (encode p i).length → IllegalForm p ((encode p i).take n)

end Sys2Proof.Claims

open Sys2Proof Sys2Proof.Machine Sys2Proof.Claims

/-! ### Encodings -/

/-- R110, R111, R113: a request decodes from its encoding, with every operand, whatever bytes follow it. -/
def Obligations.RequestRoundTrip : Prop :=
  ∀ (p : Params) (i : Instr) (rest : List Byte), paramsOk p = true → i.isRequest = true → i.wellFormed = true →
    decode p (encode p i ++ rest) = .ok (i, rest)

/-- R104, R105: a wire frame has one reading, the command that was encoded. -/
def Obligations.FrameRoundTrip : Prop :=
  ∀ (p : Params) (c : WireCmd), paramsOk p = true → decodeFrame p (c.op p) (c.data p) = some c

/-- R110, R113: the other direction. Whatever the decoder accepts is a well-formed request, and the bytes it took
are that request's encoding; so two byte strings never decode to one request by different bytes. -/
def Obligations.DecodedBytesAreTheEncoding : Prop :=
  ∀ (p : Params) (bytes : List Byte) (i : Instr) (rest : List Byte), decode p bytes = .ok (i, rest) →
    i.isRequest = true ∧ i.wellFormed = true ∧ encode p i ++ rest = bytes

/-- Words written out from the vectors of spec/95_test_vectors.md (E1, E14, E20, E45, H9, H10, S10, P5)
decode as the vectors say. -/
def Obligations.VectorWordsDecode : Prop :=
  decode Params.standard [0x08, 0x01, 0x03, 0x00, 0x00] = .ok (.exec (.driverOutputControl 3 0), []) ∧
  decode Params.standard [0x08, 0x10, 0x02] = .error .badSleepCode ∧
  decode Params.standard [0x08, 0x11, 0x05] = .ok (.exec (.dataEntryMode .incrementXDecrementY .vertical), []) ∧
  decode Params.standard [0x09, 0x26, 0x01, 0x00, 0xFF] = .ok (.execBuf (.writeRedData [0xFF]), []) ∧
  decode Params.standard [0x11, 0x07, 0, 0, 0, 0x02, 0, 0, 0, 0x02] = .ok (.setPixel 7 2 .red, []) ∧
  decode Params.standard [0x12, 0x00, 0x00] = .ok (.drawPixels [], []) ∧
  decode Params.standard [0x02, 0x03, 0x00, 0xFF, 0xFF, 0xFF, 0x03, 0x00, 0x00, 0x00, 0x00] =
    .ok (.update [0xFF, 0xFF, 0xFF] [0x00, 0x00, 0x00], []) ∧
  decode Params.standard [0x14, 0x01, 0x00, 0x00, 0x80] = .ok (.planeWrite .red 0 0x80, [])

/-! ### The step -/

/-- A step of an idle block runs the decoded request: the bytes are taken from the host's queue (what follows the
request stays queued, the model's choice of log 4), and the rest is `exec`. -/
def Obligations.StepRunsTheDecodedRequest : Prop :=
  ∀ (s : State) (bytes rest : List Byte) (later : List (List Byte)) (i : Instr),
    s.accepting → s.inbox = bytes :: later → decode s.params bytes = .ok (i, rest) →
    step s = exec i { s with inbox := if rest.isEmpty then later else rest :: later }

/-- A step of a request in progress whose next step encodes a command, a bracketed step of R196 among them, runs that
wire instruction, and then moves to the next step unless the instruction ended the request (R31, R141). -/
def Obligations.StepRunsTheWireInstruction : Prop :=
  ∀ (s : State) (req : Instr) (misused : Bool) (k : Nat) (m : Micro) (c : WireCmd),
    s.fault = none → s.pos = .running req misused k → (stepsOf s req)[k]? = some m → m.command = some c →
    ∃ t, exec c.toInstr s = .next t ∧
      ((t.pos = s.pos ∧ step s = .next { t with pos := .running req misused (k + 1) }) ∨
       (t.pos = .idle ∧ step s = .next t))

/-- R111, R113, R122: an illegal byte string raises ILLEGAL_REQUEST with its bytes before any step of a request is
taken. That the bytes past a bad byte are recorded too is the model's choice (log 20). -/
def Obligations.IllegalRequestsFault : Prop :=
  ∀ (s : State) (bytes : List Byte) (later : List (List Byte)),
    paramsOk s.params = true → s.accepting → s.inbox = bytes :: later → IllegalForm s.params bytes →
    step s = .next (faulted .illegalRequest (.requestBytes bytes) { s with inbox := later })

/-- R296: no request is accepted after a fault, RESET and STATUS among them, and the block takes no step. -/
def Obligations.HaltedBlockAcceptsNothing : Prop :=
  ∀ (s : State) (f : FaultRecord), s.fault = some f →
    step s = .fault (.halted f) ∧ ∀ i : Instr, exec i s = .fault (.halted f)

/-! ### Wire commands -/

/-- R143, R151, R152, R154, R155, R163, R164: the one-byte commands without a range send their argument unchanged,
and change nothing but the trace (and the controller, when it may still be busy). -/
def Obligations.OneByteCommandsComplete : Prop :=
  ∀ (s : State) (v : Byte), s.fault = none → s.sendsOk 2 →
    exec (.gateDrivingVoltage v) s = .next (frameSent s.params.opc.gateDrivingVoltage [v] s) ∧
    exec (.updateDisplayOption2 v) s = .next (frameSent s.params.opc.updateDisplayOption2 [v] s) ∧
    exec (.writeVcom v) s = .next (frameSent s.params.opc.writeVcom [v] s) ∧
    exec (.gateLineWidth v) s = .next (frameSent s.params.opc.gateLineWidth [v] s) ∧
    exec (.borderWaveform v) s = .next (frameSent s.params.opc.borderWaveform [v] s) ∧
    exec (.analogBlockControl v) s = .next (frameSent s.params.opc.analogBlockControl [v] s) ∧
    exec (.digitalBlockControl v) s = .next (frameSent s.params.opc.digitalBlockControl [v] s)

/-- R153, R158, R106: DummyLinePeriod and XAddress complete inside their ranges and fault outside them. -/
def Obligations.RangedByteCommandsCompleteOrFault : Prop :=
  ∀ (s : State) (v : Byte), s.fault = none →
    (v.toNat ≤ s.params.maxDummyLinePeriod → s.sendsOk 2 →
      exec (.dummyLinePeriod v) s = .next (frameSent s.params.opc.dummyLinePeriod [v] s)) ∧
    (s.params.maxDummyLinePeriod < v.toNat →
      exec (.dummyLinePeriod v) s = .next (faulted .argOutOfRange (.command (.fixed (.dummyLinePeriod v))) s)) ∧
    (v.toNat + 1 ≤ s.params.maxSourceOutputs / 8 → s.sendsOk 2 →
      exec (.xAddress v) s = .next (frameSent s.params.opc.xAddress [v] s)) ∧
    (s.params.maxSourceOutputs / 8 < v.toNat + 1 →
      exec (.xAddress v) s = .next (faulted .argOutOfRange (.command (.fixed (.xAddress v))) s))

/-- R142, R159, R106, R71: the gate count and the Y address go low byte first, and fault above the ceiling. -/
def Obligations.GateCountAndYAddressCompleteOrFault : Prop :=
  ∀ (s : State) (v : Half) (scan : Byte), s.fault = none →
    (v.toNat ≤ s.params.maxGateOutputs → s.sendsOk 2 →
      exec (.driverOutputControl v scan) s =
        .next (frameSent s.params.opc.driverOutputControl [lo8 v, hi8 v, scan] s) ∧
      exec (.yAddress v) s = .next (frameSent s.params.opc.yAddress [lo8 v, hi8 v] s)) ∧
    (s.params.maxGateOutputs < v.toNat →
      exec (.driverOutputControl v scan) s =
        .next (faulted .argOutOfRange (.command (.fixed (.driverOutputControl v scan))) s) ∧
      exec (.yAddress v) s = .next (faulted .argOutOfRange (.command (.fixed (.yAddress v))) s))

/-- R156, R157, R106: the window commands send both bounds, start before end, whichever is the larger; a bound out of
range faults. -/
def Obligations.WindowCommandsCompleteOrFault : Prop :=
  ∀ (s : State) (a b : Byte) (c d : Half), s.fault = none →
    (a.toNat + 1 ≤ s.params.maxSourceOutputs / 8 ∧ b.toNat + 1 ≤ s.params.maxSourceOutputs / 8 → s.sendsOk 2 →
      exec (.startEndXPosition a b) s = .next (frameSent s.params.opc.startEndXPosition [a, b] s)) ∧
    (¬ (a.toNat + 1 ≤ s.params.maxSourceOutputs / 8 ∧ b.toNat + 1 ≤ s.params.maxSourceOutputs / 8) →
      exec (.startEndXPosition a b) s =
        .next (faulted .argOutOfRange (.command (.fixed (.startEndXPosition a b))) s)) ∧
    (c.toNat ≤ s.params.maxGateOutputs ∧ d.toNat ≤ s.params.maxGateOutputs → s.sendsOk 2 →
      exec (.startEndYPosition c d) s =
        .next (frameSent s.params.opc.startEndYPosition [lo8 c, hi8 c, lo8 d, hi8 d] s)) ∧
    (¬ (c.toNat ≤ s.params.maxGateOutputs ∧ d.toNat ≤ s.params.maxGateOutputs) →
      exec (.startEndYPosition c d) s =
        .next (faulted .argOutOfRange (.command (.fixed (.startEndYPosition c d))) s))

/-- R144, R147, R148, R105, R37: the source voltages in operand order, the sleep code of each mode, and the
data-entry byte with the axis in bit 2 and the mode in bits 1 and 0. -/
def Obligations.VoltageSleepAndEntryCommandsComplete : Prop :=
  ∀ (s : State) (a b c : Byte) (m : SleepMode) (e : EntryMode) (x : Axis), s.fault = none → s.sendsOk 2 →
    exec (.sourceDrivingVoltage a b c) s = .next (frameSent s.params.opc.sourceDrivingVoltage [a, b, c] s) ∧
    exec (.deepSleepMode m) s = .next (frameSent s.params.opc.deepSleepMode
      [match m with
       | .normal => s.params.sleepCode.normal
       | .preserveRam => s.params.sleepCode.preserveRam
       | .discardRam => s.params.sleepCode.discardRam] s) ∧
    exec (.dataEntryMode e x) s = .next (frameSent s.params.opc.dataEntryMode
      [(match x with
        | .horizontal => 0#8
        | .vertical => 4#8) |||
       (match e with
        | .decrementXDecrementY => 0#8
        | .incrementXDecrementY => 1#8
        | .decrementXIncrementY => 2#8
        | .incrementYIncrementX => 3#8)] s)

/-- R149, R150, R340: SoftReset and UpdateDisplay send their opcode alone, with no DATA, DELAY or WAIT_BUSY; from
then on the controller may be busy. -/
def Obligations.LongOperationsSendOnlyTheirOpcode : Prop :=
  ∀ s : State, s.fault = none → s.sendsOk 1 →
    exec .softReset s = .next (longOpSent s.params.opc.softReset s) ∧
    exec .updateDisplay s = .next (longOpSent s.params.opc.updateDisplay s)

/-- R145, R146, R293: the GK extras fault while they are not admitted, before any range check; admitted, they
complete in range, and GateScanStartPosition faults out of range. -/
def Obligations.ExtraCommandsNeedTheirParameter : Prop :=
  ∀ (s : State) (a b c d : Byte) (pos : Half), s.fault = none →
    (s.params.admitGkExtra = false →
      exec (.boosterEnable a b c d) s = .next (faulted .unimplementedCommand (.name .boosterEnable) s) ∧
      exec (.gateScanStartPosition pos) s =
        .next (faulted .unimplementedCommand (.name .gateScanStartPosition) s)) ∧
    (s.params.admitGkExtra = true → s.sendsOk 2 →
      exec (.boosterEnable a b c d) s = .next (frameSent s.params.opc.boosterEnable [a, b, c, d] s)) ∧
    (s.params.admitGkExtra = true → pos.toNat < s.params.maxGateOutputs → s.sendsOk 2 →
      exec (.gateScanStartPosition pos) s =
        .next (frameSent s.params.opc.gateScanStartPosition [lo8 pos, hi8 pos] s)) ∧
    (s.params.admitGkExtra = true → s.params.maxGateOutputs ≤ pos.toNat →
      exec (.gateScanStartPosition pos) s =
        .next (faulted .argOutOfRange (.command (.fixed (.gateScanStartPosition pos))) s))

/-- R160, R161, R162, R141: the buffer commands send the whole buffer in one DATA event, and no DATA when it is
empty; WriteLUT faults on a wrong length under LUT_STRICT. -/
def Obligations.BufferCommandsComplete : Prop :=
  ∀ (s : State) (buf : List Byte), s.fault = none →
    (s.sendsOk 2 →
      exec (.writeBlackData buf) s = .next
        { s with trace := s.trace ++ frameEvents s.params.opc.writeBlackData buf
                 sendCount := s.sendCount + (frameEvents s.params.opc.writeBlackData buf).length
                 ctrl := s.ctrl.onFrame } ∧
      exec (.writeRedData buf) s = .next
        { s with trace := s.trace ++ frameEvents s.params.opc.writeRedData buf
                 sendCount := s.sendCount + (frameEvents s.params.opc.writeRedData buf).length
                 ctrl := s.ctrl.onFrame }) ∧
    (s.sendsOk 2 → (s.params.lutStrict = true → buf.length = s.params.lutLen) →
      exec (.writeLut buf) s = .next
        { s with trace := s.trace ++ frameEvents s.params.opc.writeLut buf
                 sendCount := s.sendCount + (frameEvents s.params.opc.writeLut buf).length
                 ctrl := s.ctrl.onFrame }) ∧
    (s.params.lutStrict = true → buf.length ≠ s.params.lutLen →
      exec (.writeLut buf) s = .next (faulted .argOutOfRange (.command (.buffer (.writeLut buf))) s))

/-- R141, R210, R297: a send of a command's frame that fails ends it at that event: DATA is not sent after a failed
CMD, nothing is retried, and the transport's error is recorded and returned unmodified. -/
def Obligations.FailedSendEndsTheCommand : Prop :=
  ∀ (s : State) (c : WireCmd) (e : TransportError), s.fault = none → commandFault s.params c = none →
    (s.sendResult s.sendCount = some e →
      exec c.toInstr s = .next { errored e s with
        trace := s.trace ++ [.cmdFailed (c.op s.params) e], sendCount := s.sendCount + 1 }) ∧
    (c.data s.params ≠ [] → s.sendResult s.sendCount = none → s.sendResult (s.sendCount + 1) = some e →
      exec c.toInstr s = .next { errored e s with
        trace := s.trace ++ [.cmd (c.op s.params), .dataFailed (c.data s.params) e], sendCount := s.sendCount + 2 })

/-! ### Sequencer requests -/

/-- R192 to R198: RESET from every state, with busy clear at its poll and every send good, emits exactly the pulse,
the soft reset, the busy-wait and the initialisation frames (the bracketed ones when their parameter or table is
set), and ends in READY; planes, misuse and everything else are unchanged. -/
def Obligations.ResetCompletes : Prop :=
  ∀ s : State, s.accepting → Cfg.legal s.params s.cfg = true → s.busyClear →
    s.sendsOk (1 + (initEvents s.params s.cfg).length) → exec .reset s = .next (resetDone s)

/-- R198: at the default parameters and without a table, RESET emits exactly 21 events. -/
def Obligations.ResetTraceHasTwentyOneEvents : Prop :=
  ∀ s : State, s.accepting → s.params = Params.standard → Cfg.legal s.params s.cfg = true → s.cfg.lut = none →
    s.busyClear → s.sendsOk 19 →
    ∃ t, exec .reset s = .next t ∧ t.trace = s.trace ++
      [.resetPulse, .cmd 0x12, .waitBusy, .cmd 0x74, .data [0x54], .cmd 0x7E, .data [0x3B],
       .cmd 0x01, .data [lo8 s.cfg.rows, hi8 s.cfg.rows, 0x00], .cmd 0x3A, .data [s.cfg.dummyLinePeriod],
       .cmd 0x3B, .data [s.cfg.gateLineWidth], .cmd 0x2C, .data [s.cfg.vcom],
       .cmd 0x11, .data [entryByte s.cfg.dataEntryMode s.cfg.incrementAxis],
       .cmd 0x44, .data [0x00, BitVec.ofNat 8 (s.cfg.cols.toNat / 8 - 1)],
       .cmd 0x45, .data [0x00, 0x00, lo8 s.cfg.rows, hi8 s.cfg.rows]]

/-- R194, R205: while busy, RESET holds after the soft reset: two events are out, the sequencer state is unchanged,
no response is given, and the position names the busy-wait. -/
def Obligations.ResetHoldsAtTheBusyWait : Prop :=
  ∀ s : State, s.accepting → Cfg.legal s.params s.cfg = true → s.busyLevel s.pollCount = true → s.sendsOk 1 →
    exec .reset s = .next
      { s with pos := .running .reset false 2
               busyIn := true
               pollCount := s.pollCount + 1
               sendCount := s.sendCount + 1
               trace := s.trace ++ [.resetPulse, .cmd s.params.opc.softReset]
               ctrl := { s.ctrl.onFrame with longOp := true } }

/-- R199, R202, R191: UPDATE with long enough buffers, busy clear at its poll and every send good emits the 17
events with the first PLANE_LEN bytes of each buffer, from READY and, misused, from every other state alike. -/
def Obligations.UpdateCompletes : Prop :=
  ∀ (s : State) (black red : List Byte), s.accepting → Cfg.legal s.params s.cfg = true →
    s.cfg.planeLen ≤ black.length → s.cfg.planeLen ≤ red.length → s.busyClear → s.sendsOk 15 →
    exec (.update black red) s = .next (updateDone (black.take s.cfg.planeLen) (red.take s.cfg.planeLen) s)

/-- R200: a buffer shorter than the plane faults before any event and before `st.seq` changes; otherwise exactly
PLANE_LEN bytes of each buffer are sent. -/
def Obligations.UpdateChecksItsBuffers : Prop :=
  ∀ (s : State) (black red : List Byte), s.accepting →
    (black.length < s.cfg.planeLen ∨ red.length < s.cfg.planeLen →
      exec (.update black red) s =
        .next (faulted .contractViolation (.shortBuffer black.length red.length s.cfg.planeLen) s)) ∧
    (¬ (black.length < s.cfg.planeLen ∨ red.length < s.cfg.planeLen) → Cfg.legal s.params s.cfg = true →
      s.busyClear → s.sendsOk 15 →
      ∃ t B R, exec (.update black red) s = .next t ∧ t.trace = s.trace ++ updateEvents s.params B R ∧
        B = black.take s.cfg.planeLen ∧ B.length = s.cfg.planeLen ∧
        R = red.take s.cfg.planeLen ∧ R.length = s.cfg.planeLen)

/-- R243, R85: GFX_UPDATE is UPDATE on the block's own planes as they stand; the planes are not changed. -/
def Obligations.GfxUpdateSendsThePlanes : Prop :=
  ∀ s : State, s.accepting → Cfg.legal s.params s.cfg = true → s.busyClear → s.sendsOk 15 →
    exec .gfxUpdate s = .next (updateDone (s.planeBytes .black) (s.planeBytes .red) s) ∧
    exec .gfxUpdate s = exec (.update (s.planeBytes .black) (s.planeBytes .red)) s

/-- R203, R191, R44: DEEP_SLEEP sends one frame and ends in SLEEPING from READY; from any other state it is misused,
sends the same frame and leaves the sequencer state alone. -/
def Obligations.DeepSleepCompletes : Prop :=
  ∀ s : State, s.accepting → s.sendsOk 2 →
    exec .deepSleep s = .next
      { s with seq := if s.seq = .ready then .sleeping else s.seq
               misuse := s.misuse || s.seq != .ready
               lastErr := none
               sendCount := s.sendCount + 2
               trace := s.trace ++ [.cmd s.params.opc.deepSleepMode, .data [s.params.sleepCode.preserveRam]]
               responses := s.responses ++ [.ok]
               ctrl := Ctrl.afterSleep (if s.seq = .ready then s.ctrl.onFrame else s.ctrl.forget) }

/-- R206, R207, D30: EXEC and EXEC_BUF of a command that passes its checks send its frame, clear `st.last_err` and
respond OK; they never write `st.seq` or wait, whatever the command. -/
def Obligations.ExecCompletes : Prop :=
  ∀ (s : State) (c : WireCmd) (i : Instr), (∃ f, c = .fixed f ∧ i = .exec f) ∨ (∃ b, c = .buffer b ∧ i = .execBuf b) →
    s.accepting → commandFault s.params c = none → s.sendsOk 2 →
    exec i s = .next
      { s with lastErr := none
               trace := s.trace ++ frameEvents (c.op s.params) (c.data s.params)
               sendCount := s.sendCount + (frameEvents (c.op s.params) (c.data s.params)).length
               responses := s.responses ++ [.ok]
               ctrl := { s.ctrl.onFrame with
                 longOp := s.ctrl.longOp || c.kind == .softReset || c.kind == .updateDisplay } }

/-- R190, R293, R206, R207: EXEC reports UNIMPLEMENTED_COMMAND before ARG_OUT_OF_RANGE; EXEC_BUF of a WriteLUT of a wrong
length under LUT_STRICT reports ARG_OUT_OF_RANGE; nothing but the latch changes. -/
def Obligations.ExecFaultsInPriorityOrder : Prop :=
  ∀ (s : State) (c : Command), s.accepting →
    ((c.kind = .boosterEnable ∨ c.kind = .gateScanStartPosition) → s.params.admitGkExtra = false →
      exec (.exec c) s = .next (faulted .unimplementedCommand (.name c.kind) s)) ∧
    (((c.kind ≠ .boosterEnable ∧ c.kind ≠ .gateScanStartPosition) ∨ s.params.admitGkExtra = true) →
      commandInRange s.params c = false →
      exec (.exec c) s = .next (faulted .argOutOfRange (.command (.fixed c)) s)) ∧
    ∀ buf : List Byte, s.params.lutStrict = true → buf.length ≠ s.params.lutLen →
      exec (.execBuf (.writeLut buf)) s =
        .next (faulted .argOutOfRange (.command (.buffer (.writeLut buf))) s)

/-- R208, R205: WAIT completes with one WAIT_BUSY event when busy is clear, and holds while it is not. -/
def Obligations.WaitCompletesOrHolds : Prop :=
  ∀ s : State, s.accepting →
    (s.busyLevel s.pollCount = false →
      exec .wait s = .next
        { s with busyIn := false
                 pollCount := s.pollCount + 1
                 trace := s.trace ++ [.waitBusy]
                 responses := s.responses ++ [.ok]
                 ctrl := { s.ctrl with longOp := false } }) ∧
    (s.busyLevel s.pollCount = true →
      exec .wait s = .next { s with busyIn := true, pollCount := s.pollCount + 1, pos := .running .wait false 0 })

/-- R212: STATUS responds with (st.seq, st.misuse, st.last_err); no event is emitted and no state is written. -/
def Obligations.StatusReportsTheStatus : Prop :=
  ∀ s : State, s.accepting →
    exec .status s = .next { s with responses := s.responses ++ [.okStatus s.seq s.misuse s.lastErr] }

/-- R205, R299: a held busy-wait stays held, with nothing but the polls to show, for as many steps as the busy input
stays set, and there is no bound on that; the step that sees it clear, the very next one or a later one, records
WAIT_BUSY and goes on. That a hold is a step that polls is the model's choice (log 26). -/
def Obligations.BusyWaitHoldsUntilBusyClears : Prop :=
  ∀ (s : State) (req : Instr) (misused : Bool) (k n : Nat),
    s.fault = none → s.pos = .running req misused k → (stepsOf s req)[k]? = some .waitBusy →
    (∀ j, j < n → s.busyLevel (s.pollCount + j) = true) →
    (0 < n → stepN n s = .next { s with busyIn := true, pollCount := s.pollCount + n }) ∧
    (s.busyLevel (s.pollCount + n) = false →
      stepN (n + 1) s = .next
        { s with busyIn := false
                 pollCount := s.pollCount + (n + 1)
                 pos := .running req misused (k + 1)
                 trace := s.trace ++ [.waitBusy]
                 ctrl := { s.ctrl with longOp := false } })

/-- R343, R299: under the fairness assumption, that some later poll sees the busy input clear, every request ends with
exactly one response and no fault: one in progress, held or not, and one that an accepting block takes after its
checks. Without the assumption it may be held for ever. -/
def Obligations.RequestsEndUnderFairness : Prop :=
  (∀ (s : State) (req : Instr) (misused : Bool) (k : Nat),
    s.Inv → s.fault = none → s.pos = .running req misused k → s.busyFair →
    ∃ n t r, stepN n s = .next t ∧ t.pos = .idle ∧ t.fault = none ∧ t.responses = s.responses ++ [r]) ∧
  ∀ (s : State) (i : Instr), s.Inv → s.accepting → i.isRequest = true → requestFault s i = none → s.busyFair →
    ∃ n t t' r, exec i s = .next t ∧ stepN n t = .next t' ∧ t'.pos = .idle ∧ t'.fault = none ∧
      t'.responses = s.responses ++ [r]

/-! ### Framebuffer requests -/

/-- R231: CLEAR fills every byte of both planes with the colour's pattern, whatever the rotation and the previous
contents; no event is emitted and nothing else changes. It is request 0x10, illegal for a colour code of 3 or more. -/
def Obligations.ClearFillsBothPlanes : Prop :=
  ∀ (s : State) (c : Color), s.accepting →
    ∃ t, exec (.clear c) s = .next t ∧
      (∀ i, i < s.cfg.planeLen →
        (t.readByte .black i, t.readByte .red i) =
          match c with
          | .white => (0xFF, 0x00)
          | .black => (0x00, 0x00)
          | .red => (0xFF, 0xFF)) ∧
      (∀ p i, s.cfg.planeLen ≤ i → t.readByte p i = s.readByte p i) ∧
      t = { s with black := t.black, red := t.red, responses := s.responses ++ [.ok] } ∧
      (∀ rest, decode s.params (0x10 :: c.code :: rest) = .ok (.clear c, rest)) ∧
      ∀ b rest, 3 ≤ b.toNat → decode s.params (0x10 :: b :: rest) = .error .badColor

/-- R240, R238, R232, R233: SET_PIXEL outside the logical bounds changes no plane byte; inside them it changes one
bit of one byte of each plane, to the colour's pair, at the transformed address. Nothing else changes. An operand that
fits in COORD_W bits is the coordinate itself; what a wider one stands for is left free (log 11). -/
def Obligations.SetPixelWritesOneBit : Prop :=
  ∀ (s : State) (x y : Coord) (c : Color) (X Y : Nat), s.accepting → X = coordOf s.params x → Y = coordOf s.params y →
    (x.toNat < 2 ^ s.params.coordW → X = x.toNat) ∧ (y.toNat < 2 ^ s.params.coordW → Y = y.toNat) ∧
    ∃ t, exec (.setPixel x y c) s = .next t ∧
      t = { s with black := t.black, red := t.red, responses := s.responses ++ [.ok] } ∧
      (outside s.cfg X Y = true → t.black = s.black ∧ t.red = s.red) ∧
      (outside s.cfg X Y = false →
        (∀ p i, i ≠ (transform s.cfg X Y).1 → t.readByte p i = s.readByte p i) ∧
        ∀ i m, (i, m) = transform s.cfg X Y →
          (∀ p, t.readByte p i &&& ~~~m = s.readByte p i &&& ~~~m) ∧
          t.readByte .black i &&& m =
            (match c with
             | .black => 0
             | .white => m
             | .red => m) ∧
          t.readByte .red i &&& m =
            (match c with
             | .black => 0
             | .white => 0
             | .red => m))

/-- R242: DRAW_PIXELS leaves the planes that SET_PIXEL of each record in list order leaves, gives one response, and
changes nothing else; an empty list changes no plane byte. -/
def Obligations.DrawPixelsIsSetPixelInOrder : Prop :=
  ∀ (s : State) (px : Pixel) (pxs : List Pixel), s.accepting →
    exec (.drawPixels []) s = .next { s with responses := s.responses ++ [.ok] } ∧
    ∃ t t1 t2, exec (.drawPixels (px :: pxs)) s = .next t ∧ exec (.setPixel px.x px.y px.color) s = .next t1 ∧
      exec (.drawPixels pxs) t1 = .next t2 ∧
      t = { s with black := t2.black, red := t2.red, responses := s.responses ++ [.ok] }

/-- R244: PLANE_WRITE writes one plane byte, or faults on an index outside the plane. -/
def Obligations.PlaneWriteWritesOneByte : Prop :=
  ∀ (s : State) (p : Plane) (idx : Half) (v : Byte), s.accepting →
    (idx.toNat < s.cfg.planeLen →
      ∃ t, exec (.planeWrite p idx v) s = .next t ∧ t.readByte p idx.toNat = v ∧
        (∀ q i, q ≠ p ∨ i ≠ idx.toNat → t.readByte q i = s.readByte q i) ∧
        t = { s with black := t.black, red := t.red, responses := s.responses ++ [.ok] }) ∧
    (s.cfg.planeLen ≤ idx.toNat →
      exec (.planeWrite p idx v) s = .next (faulted .argOutOfRange (.planeIndex idx) s))

/-- R245: PLANE_READ responds with the plane byte and writes no state, or faults on an index outside the plane. -/
def Obligations.PlaneReadReturnsTheByte : Prop :=
  ∀ (s : State) (p : Plane) (idx : Half), s.accepting →
    (idx.toNat < s.cfg.planeLen →
      exec (.planeRead p idx) s =
        .next { s with responses := s.responses ++ [.okByte (s.readByte p idx.toNat)] }) ∧
    (s.cfg.planeLen ≤ idx.toNat →
      exec (.planeRead p idx) s = .next (faulted .argOutOfRange (.planeIndex idx) s))

/-- R239: for each rotation, the transform maps the in-bounds coordinates one to one onto the bits of the plane. -/
def Obligations.TransformIsABijection : Prop :=
  ∀ cfg : Cfg, nativeGrid cfg →
    (∀ x y, outside cfg x y = false →
      (transform cfg x y).1 < cfg.planeLen ∧ ∃ k, k < 8 ∧ (transform cfg x y).2 = maskFromLeft k) ∧
    (∀ x y x' y', outside cfg x y = false → outside cfg x' y' = false →
      transform cfg x y = transform cfg x' y' → x = x' ∧ y = y') ∧
    (∀ i k, i < cfg.planeLen → k < 8 → ∃ x y, outside cfg x y = false ∧ transform cfg x y = (i, maskFromLeft k))

/-- R46, R240: the framebuffer's drawing requests never bring about the pair (0, 1) at a pixel that does not have
it; and CLEAR leaves it nowhere in the planes. -/
def Obligations.DrawingNeverMakesTheOpenPair : Prop :=
  ∀ (s t : State) (i k : Nat), Cfg.legal s.params s.cfg = true → i < s.cfg.planeLen → k < 8 →
    ((∃ c, exec (.clear c) s = .next t) → ¬ openPair t i k) ∧
    (¬ openPair s i k →
      (∃ x y c, exec (.setPixel x y c) s = .next t) ∨ (∃ pxs, exec (.drawPixels pxs) s = .next t) →
      ¬ openPair t i k)

/-! ### Configuration and power-on -/

/-- R272: a build without a `dimensions` option returns ConfigError, whatever else it holds. -/
def Obligations.BuildNeedsDimensions : Prop :=
  ∀ (p : Params) (options : List BuildOption), (∀ rows cols, BuildOption.dimensions rows cols ∉ options) →
    build p options = .configError

/-- R273, R271: a build whose geometry breaks any of the five conditions faults with the geometry, whatever its
other options. -/
def Obligations.BuildChecksTheGeometryFirst : Prop :=
  ∀ (p : Params) (before later : List BuildOption) (rows cols : Half),
    (∀ r c, BuildOption.dimensions r c ∉ later) →
    ¬ (cols.toNat % 8 = 0 ∧ rows.toNat ≤ p.maxGateOutputs ∧ cols.toNat ≤ p.maxSourceOutputs ∧
       1 ≤ rows.toNat ∧ 8 ≤ cols.toNat) →
    build p (before ++ .dimensions rows cols :: later) =
      .fault { code := .geometryInvalid, info := .geometry rows cols }

/-- R34, R35, R275: what a build gives is legal, and the block instantiated from it meets the invariant. -/
def Obligations.BuiltBlocksMeetTheInvariant : Prop :=
  ∀ (p : Params) (options : List BuildOption) (cfg : Cfg), build p options = .built cfg →
    Cfg.legal p cfg = true ∧ (instantiate p cfg).Inv

/-- R270, R330: the state after power-on has the values R330 gives, and its configuration is what a build of the
model's reset geometry alone gives (the geometry 3 by 8 is the model's choice, log 12). -/
def Obligations.PowerOnState : Prop :=
  State.reset.pos = .idle ∧ State.reset.seq = .uninitialized ∧ State.reset.misuse = false ∧
  State.reset.fault = none ∧ State.reset.lastErr = none ∧ State.reset.trace = [] ∧
  State.reset.ctrl.bwRam = none ∧ State.reset.ctrl.redRam = none ∧ State.reset.ctrl.asleep = none ∧
  State.reset.ctrl.lut = some .powerOnDefault ∧
  build State.reset.params [.dimensions 3 8] = .built State.reset.cfg ∧
  (State.reset.cfg.rotation, State.reset.cfg.dummyLinePeriod, State.reset.cfg.gateLineWidth, State.reset.cfg.vcom,
   State.reset.cfg.lut, State.reset.cfg.dataEntryMode, State.reset.cfg.incrementAxis) =
    (.rot0, 0x07, 0x04, 0x3C, none, .incrementYIncrementX, .horizontal)

/-- The invariant holds after power-on. -/
def Obligations.PowerOnMeetsTheInvariant : Prop := State.reset.Inv

/-! ### The whole machine -/

/-- Every step keeps the invariant: legal configuration, canonical planes inside their length, a position that
names a step of a checked request, transient sequencer states only inside the requests that write them (R33), a
halted block IDLE (R295), no empty DATA and no foreign opcode in the trace (R13, R120), nothing known of a lost
controller (R45), and the controller lost during a misused request (R342, log 13). -/
def Obligations.StepKeepsTheInvariant : Prop :=
  ∀ s t : State, s.Inv → step s = .next t → t.Inv

/-- R34, R40, R50: no step changes the parameters or the configuration registers, clears `st.misuse`, or takes
anything from the trace or the responses. -/
def Obligations.StepsOnlyAppendAndStick : Prop :=
  ∀ s t : State, step s = .next t →
    t.params = s.params ∧ t.cfg = s.cfg ∧ (s.misuse = true → t.misuse = true) ∧
    (∃ events, t.trace = s.trace ++ events) ∧ (∃ rs, t.responses = s.responses ++ rs)

/-- R295: a faulting request changes nothing but `st.fault`: no event, no plane write, no misuse, no response, and
the position is IDLE. -/
def Obligations.FaultingRequestChangesOnlyTheLatch : Prop :=
  ∀ (s t : State) (i : Instr), s.accepting → i.isRequest = true → exec i s = .next t → t.fault ≠ none →
    t = { s with fault := t.fault } ∧ t.pos = .idle ∧ step t = match t.fault with
      | some f => .fault (.halted f)
      | none => .next t

/-- R39, R331, R243: only CLEAR, SET_PIXEL, DRAW_PIXELS and PLANE_WRITE change the planes; and those four, with
PLANE_READ and STATUS, emit no event and leave the sequencer state, the error, the misuse flag and the controller
alone. -/
def Obligations.PlanesAndTraceAreSeparate : Prop :=
  ∀ (s t : State) (i : Instr), exec i s = .next t →
    ((∀ c, i ≠ .clear c) → (∀ x y c, i ≠ .setPixel x y c) → (∀ pxs, i ≠ .drawPixels pxs) →
      (∀ p idx v, i ≠ .planeWrite p idx v) → t.black = s.black ∧ t.red = s.red) ∧
    match i with
    | .clear _ | .setPixel _ _ _ | .drawPixels _ | .planeWrite _ _ _ | .planeRead _ _ | .status =>
      t.trace = s.trace ∧ t.seq = s.seq ∧ t.lastErr = s.lastErr ∧ t.misuse = s.misuse ∧ t.ctrl = s.ctrl
    | _ => True

/-- R209, R210, R191: the sequencer transitions of a request that ends. Either a transport error ended it, in
ERRORED with the error recorded and returned; or the sequencer state is READY after RESET, READY after an UPDATE
from READY, SLEEPING after a DEEP_SLEEP from READY, and unchanged in every other case. -/
def Obligations.SequencerTransitions : Prop :=
  ∀ (s t : State) (i : Instr), s.accepting → i.isRequest = true → exec i s = .next t → t.pos = .idle →
    t.fault = none →
    (∃ e, t.seq = .errored ∧ t.lastErr = some e ∧ t.responses = s.responses ++ [.errTransport e]) ∨
    ((∀ e, t.responses ≠ s.responses ++ [.errTransport e]) ∧
      t.seq = match i with
              | .reset => .ready
              | .deepSleep => if s.seq = .ready then .sleeping else s.seq
              | _ => s.seq)

/-- R209, R210, R191, R31, R112: one step of a request in progress, a held one taken on among them. It never faults.
Either the request goes on: the position is the next one, or the same one at a busy-wait that sees busy set; no
response is given, the error is kept, and `st.seq` changes only to the request's own transient value. Or the request
ends, IDLE, with exactly one response: ERR after a transport error, in ERRORED with the error recorded; else no error,
with `st.seq` READY after RESET, READY after an update and SLEEPING after DEEP_SLEEP unless misused, and unchanged in
every other case, and `st.last_err` cleared by the requests that emit frames alone. -/
def Obligations.RunningStepTransitions : Prop :=
  ∀ (s t : State) (req : Instr) (misused : Bool) (k : Nat),
    s.Inv → s.fault = none → s.pos = .running req misused k → step s = .next t →
    t.fault = none ∧
    (((t.pos = .running req misused (k + 1) ∨ (t.pos = s.pos ∧ s.heldInWait ∧ t.busyIn = true)) ∧
      t.responses = s.responses ∧ t.lastErr = s.lastErr ∧
      (t.seq = s.seq ∨ (misused = false ∧ req = .reset ∧ t.seq = .initialized) ∨
        (misused = false ∧ isUpdate req ∧ t.seq = .updating))) ∨
     (t.pos = .idle ∧ ∃ r, t.responses = s.responses ++ [r] ∧
      ((∃ e, r = .errTransport e ∧ t.seq = .errored ∧ t.lastErr = some e) ∨
       ((∀ e, r ≠ .errTransport e) ∧
        (t.seq, t.lastErr) =
          match req with
          | .reset => (.ready, none)
          | .update _ _ | .gfxUpdate => (if misused then s.seq else .ready, none)
          | .deepSleep => (if misused then s.seq else .sleeping, none)
          | .exec _ | .execBuf _ => (s.seq, none)
          | _ => (s.seq, s.lastErr)))))

/-- R191: a misused request that passes its checks emits exactly the events it would emit from READY, sets the
sticky flag, and leaves `st.seq` as it was unless a transport error ended it. -/
def Obligations.MisusedRequestsEmitTheSameEvents : Prop :=
  ∀ (s : State) (i : Instr), (i = .gfxUpdate ∨ i = .deepSleep ∨ ∃ b r, i = .update b r) → s.accepting →
    s.seq ≠ .ready → requestFault s i = none →
    ∃ t t', exec i s = .next t ∧ exec i { s with seq := .ready } = .next t' ∧ t.trace = t'.trace ∧ t.misuse = true ∧
      ((t.seq = s.seq) ∨ (t.seq = .errored ∧ ∃ e, t.lastErr = some e))

/-- R210, R297, R78: in a request that meets a failed send, the failed event is the last; the sequencer state is
ERRORED, the error is recorded and returned, the controller is unknown (R45), and the block is not halted. -/
def Obligations.FailedEventIsTheLast : Prop :=
  ∀ (s t : State) (i : Instr) (events : List Event) (ev : Event) (e : TransportError), s.accepting →
    i.isRequest = true → exec i s = .next t → t.trace = s.trace ++ events → ev ∈ events →
    ((∃ b, ev = .cmdFailed b e) ∨ ∃ bs, ev = .dataFailed bs e) →
    events.getLast? = some ev ∧ t.seq = .errored ∧ t.lastErr = some e ∧ t.pos = .idle ∧ t.fault = none ∧
    t.responses = s.responses ++ [.errTransport e] ∧ t.ctrl.lost = true ∧ t.ctrl.bwRam = none ∧ t.ctrl.redRam = none ∧
    t.ctrl.asleep = none ∧ t.ctrl.lut = none

/-- R210, R297, R78: the same for one step of a request in progress: a failed event is the last of the step and of its
request, which ends there in ERRORED, with the error recorded and returned and the controller unknown (R45). -/
def Obligations.FailedEventEndsTheRunningRequest : Prop :=
  ∀ (s t : State) (req : Instr) (misused : Bool) (k : Nat) (events : List Event) (ev : Event) (e : TransportError),
    s.Inv → s.fault = none → s.pos = .running req misused k → step s = .next t → t.trace = s.trace ++ events →
    ev ∈ events → ((∃ b, ev = .cmdFailed b e) ∨ ∃ bs, ev = .dataFailed bs e) →
    events.getLast? = some ev ∧ t.seq = .errored ∧ t.lastErr = some e ∧ t.pos = .idle ∧ t.fault = none ∧
    t.responses = s.responses ++ [.errTransport e] ∧ t.ctrl.lost = true ∧ t.ctrl.bwRam = none ∧ t.ctrl.redRam = none ∧
    t.ctrl.asleep = none ∧ t.ctrl.lut = none

/-- R112: a request that ends without a fault gives exactly one response; one that faults or is held gives none. -/
def Obligations.OneResponsePerRequest : Prop :=
  ∀ (s t : State) (i : Instr), s.accepting → i.isRequest = true → exec i s = .next t →
    (t.pos = .idle ∧ t.fault = none → ∃ r, t.responses = s.responses ++ [r]) ∧
    (t.pos ≠ .idle ∨ t.fault ≠ none → t.responses = s.responses)

/-- R74, R36: the rotation never changes the wire protocol: under every rotation an instruction emits the same
events and gives the same responses, and so does a step of the machine, at any position. Every instruction but
SET_PIXEL and DRAW_PIXELS does the same in all else too. -/
def Obligations.RotationNeverChangesTheWire : Prop :=
  ∀ (s t : State) (r : Rotation),
    (∀ i : Instr, exec i s = .next t →
      ∃ t', exec i (rotated r s) = .next t' ∧ t'.trace = t.trace ∧ t'.responses = t.responses ∧
        ((∀ x y c, i ≠ .setPixel x y c) → (∀ pxs, i ≠ .drawPixels pxs) → t' = rotated r t)) ∧
    (step s = .next t →
      ∃ t', step (rotated r s) = .next t' ∧ t'.trace = t.trace ∧ t'.responses = t.responses ∧ t'.pos = t.pos)

/-- R8, R51: the polarity of the busy line and the transport's chunk size are invisible to the block: behind another
transport, every instruction and every step answers the same. -/
def Obligations.TransportParametersAreInvisible : Prop :=
  ∀ (s : State) (activeHigh : Bool) (chunk : Nat),
    (step (behind activeHigh chunk s) = match step s with
      | .next t => .next (behind activeHigh chunk t)
      | .fault f => .fault f
      | .refused r => .refused r) ∧
    ∀ i : Instr, exec i (behind activeHigh chunk s) = match exec i s with
      | .next t => .next (behind activeHigh chunk t)
      | .fault f => .fault f
      | .refused r => .refused r

/-- R50: the observation treats one DATA event as equal to any split of its bytes into consecutive chunks, anywhere in
a trace; so it does not see what the transport's chunk size makes of a trace, whatever that size. -/
def Obligations.ObservationIgnoresChunking : Prop :=
  (∀ (before later : List Event) (pieces : List (List Byte)), pieces ≠ [] →
    joinData (before ++ pieces.map .data ++ later) = joinData (before ++ .data pieces.flatten :: later)) ∧
  ∀ s : State, joinData s.transportTrace = joinData s.trace

/-- R31: running a request is taking its steps one at a time from (req, 0): what `exec` answers is what some number
of single steps reaches, the position IDLE or at a held busy-wait. -/
def Obligations.RequestRunsAsSingleSteps : Prop :=
  ∀ (s : State) (i : Instr), s.accepting → i.isRequest = true → requestFault s i = none →
    ∃ n t, exec i s = .next t ∧ State.tick^[n] (s.start i) = t ∧ (t.pos = .idle ∨ t.heldInWait)
end

