-- ==== Sys2Proof/Laws/Encoding.lean ====
section
/-! SUPPORT. The encodings, one lemma per field: byte order both ways, the opcode map, the sleep codes, the
data-entry byte, the colour and plane codes, and the request codes. -/

namespace Sys2Proof

/-! ### Byte order -/

@[simp] theorem le16_bytes (v : Half) : le16 (lo8 v) (hi8 v) = v := by
  have := v.isLt
  apply BitVec.eq_of_toNat_eq
  simp only [le16, lo8, hi8, BitVec.toNat_ofNat]
  omega

@[simp] theorem lo8_le16 (a b : Byte) : lo8 (le16 a b) = a := by
  have := a.isLt
  have := b.isLt
  apply BitVec.eq_of_toNat_eq
  simp only [le16, lo8, BitVec.toNat_ofNat]
  omega

@[simp] theorem hi8_le16 (a b : Byte) : hi8 (le16 a b) = b := by
  have := a.isLt
  have := b.isLt
  apply BitVec.eq_of_toNat_eq
  simp only [le16, hi8, BitVec.toNat_ofNat]
  omega

theorem take32_bytes32 (v : Coord) (r : List Byte) : take32 (bytes32 v ++ r) = .ok (v, r) := by
  have := v.isLt
  have h : le32 (BitVec.ofNat 8 v.toNat) (BitVec.ofNat 8 (v.toNat / 256)) (BitVec.ofNat 8 (v.toNat / 65536))
      (BitVec.ofNat 8 (v.toNat / 16777216)) = v := by
    apply BitVec.eq_of_toNat_eq
    simp only [le32, BitVec.toNat_ofNat]
    omega
  simp only [take32, bytes32, List.cons_append, List.nil_append, h]

theorem bytes32_le32 (a b c d : Byte) : bytes32 (le32 a b c d) = [a, b, c, d] := by
  have := a.isLt
  have := b.isLt
  have := c.isLt
  have := d.isLt
  simp only [bytes32, le32, BitVec.toNat_ofNat, List.cons.injEq, and_true]
  refine ⟨?_, ?_, ?_, ?_⟩ <;> apply BitVec.eq_of_toNat_eq <;> simp only [BitVec.toNat_ofNat] <;> omega

/-! ### Buffers -/

theorem takeBuffer_bufferBytes {l : List Byte} (h : l.length < 65536) (r : List Byte) :
    takeBuffer (bufferBytes l ++ r) = .ok (l, r) := by
  simp [takeBuffer, bufferBytes, bytes16, take16, takeBytes, Nat.mod_eq_of_lt h]

theorem takeBuffer_inv {l b r : List Byte} (h : takeBuffer l = .ok (b, r)) :
    b.length < 65536 ∧ bufferBytes b ++ r = l := by
  rcases l with _ | ⟨x, _ | ⟨y, l⟩⟩ <;> simp [takeBuffer, take16] at h
  simp only [takeBytes] at h
  split at h
  · cases h
  · rename_i hn
    have hlt := (le16 x y).isLt
    simp only [Except.ok.injEq, Prod.mk.injEq] at h
    obtain ⟨rfl, rfl⟩ := h
    have hlen : (l.take (le16 x y).toNat).length = (le16 x y).toNat := by simp; omega
    have hv : BitVec.ofNat 16 (le16 x y).toNat = le16 x y := by simp
    refine ⟨by omega, ?_⟩
    simp only [bufferBytes, hlen, hv, bytes16, lo8_le16, hi8_le16, List.cons_append, List.nil_append,
      List.take_append_drop]

/-! ### Codes -/

theorem CmdKind.mem_all (k : CmdKind) : k ∈ CmdKind.all := by cases k <;> decide

/-- With distinct opcodes the map of R104 is inverted exactly. -/
theorem Opc.kindOf_byte {o : Opc} (h : o.distinct = true) (k : CmdKind) : o.kindOf (o.byte k) = some k := by
  simp only [Opc.distinct, decide_eq_true_eq] at h
  have inj := List.inj_on_of_nodup_map h
  cases hf : o.kindOf (o.byte k) with
  | none =>
    have := List.find?_eq_none.mp hf k (CmdKind.mem_all k)
    simp at this
  | some j =>
    have hj := List.find?_some hf
    have hm := List.mem_of_find?_eq_some hf
    simp only [beq_iff_eq] at hj
    rw [inj hm (CmdKind.mem_all k) hj]

theorem Opc.byte_of_kindOf {o : Opc} {b : Byte} {k : CmdKind} (h : o.kindOf b = some k) : o.byte k = b := by
  simpa using List.find?_some h

theorem SleepCode.modeOf_byte {c : SleepCode} (h : c.distinct = true) (m : SleepMode) :
    c.modeOf (c.byte m) = some m := by
  simp only [SleepCode.distinct, Bool.and_eq_true, decide_eq_true_eq] at h
  obtain ⟨⟨h1, h2⟩, h3⟩ := h
  cases m <;> simp [SleepCode.modeOf, SleepCode.byte, Ne.symm h1, Ne.symm h2, Ne.symm h3]

theorem SleepCode.byte_of_modeOf {c : SleepCode} {b : Byte} {m : SleepMode} (h : c.modeOf b = some m) :
    c.byte m = b := by
  unfold SleepCode.modeOf at h
  repeat' split at h
  all_goals simp_all
  all_goals subst_vars
  all_goals simp_all [SleepCode.byte]

theorem entryOf_entryByte (m : EntryMode) (a : Axis) : entryOf (entryByte m a) = some (m, a) := by
  cases m <;> cases a <;> decide

theorem entryByte_of_entryOf {b : Byte} {m : EntryMode} {a : Axis} (h : entryOf b = some (m, a)) :
    entryByte m a = b := by
  unfold entryOf at h
  split at h
  · rename_i hb
    have hb' : b = 0 ∨ b = 1 ∨ b = 2 ∨ b = 3 ∨ b = 4 ∨ b = 5 ∨ b = 6 ∨ b = 7 := by
      simp only [← BitVec.toNat_inj]
      simp
      omega
    rcases hb' with rfl | rfl | rfl | rfl | rfl | rfl | rfl | rfl <;> simp at h <;> obtain ⟨rfl, rfl⟩ := h <;> decide
  · cases h

@[simp] theorem colorOf_code (c : Color) : colorOf c.code = .ok c := by cases c <;> rfl

theorem code_of_colorOf {b : Byte} {c : Color} (h : colorOf b = .ok c) : c.code = b := by
  unfold colorOf at h
  repeat' split at h
  all_goals simp_all
  all_goals subst_vars
  all_goals rfl

@[simp] theorem planeOf_code (p : Plane) : planeOf p.code = .ok p := by cases p <;> rfl

theorem code_of_planeOf {b : Byte} {p : Plane} (h : planeOf b = .ok p) : p.code = b := by
  unfold planeOf at h
  repeat' split at h
  all_goals simp_all
  all_goals subst_vars
  all_goals rfl

@[simp] theorem ReqKind.ofCode_code (k : ReqKind) : ReqKind.ofCode k.code = some k := by cases k <;> decide

theorem ReqKind.code_of_ofCode {b : Byte} {k : ReqKind} (h : ReqKind.ofCode b = some k) : k.code = b := by
  simpa using List.find?_some h

/-! ### Records -/

theorem takePixel_bytes (px : Pixel) (r : List Byte) : takePixel (px.bytes ++ r) = .ok (px, r) := by
  simp [takePixel, Pixel.bytes, List.append_assoc, take32_bytes32]

theorem takePixels_bytes (pxs : List Pixel) (r : List Byte) :
    takePixels pxs.length (pixelBytes pxs ++ r) = .ok (pxs, r) := by
  induction pxs with
  | nil => rfl
  | cons px pxs ih => simp [takePixels, pixelBytes, List.append_assoc, takePixel_bytes, ih]

theorem takePixel_inv {l r : List Byte} {px : Pixel} (h : takePixel l = .ok (px, r)) : px.bytes ++ r = l := by
  rcases l with _ | ⟨a, _ | ⟨b, _ | ⟨c, _ | ⟨d, _ | ⟨e, _ | ⟨f, _ | ⟨g, _ | ⟨i, _ | ⟨j, l⟩⟩⟩⟩⟩⟩⟩⟩⟩ <;>
    simp [takePixel, take32] at h
  split at h
  · cases h
  · rename_i c' hc
    simp only [Except.ok.injEq, Prod.mk.injEq] at h
    obtain ⟨rfl, rfl⟩ := h
    simp [Pixel.bytes, bytes32_le32, code_of_colorOf hc]

theorem takePixels_inv {n : Nat} {l r : List Byte} {pxs : List Pixel} (h : takePixels n l = .ok (pxs, r)) :
    pxs.length = n ∧ pixelBytes pxs ++ r = l := by
  induction n generalizing l pxs with
  | zero => simp [takePixels] at h; obtain ⟨rfl, rfl⟩ := h; simp [pixelBytes]
  | succ n ih =>
    simp only [takePixels] at h
    split at h
    · cases h
    · rename_i px r1 h1
      split at h
      · cases h
      · rename_i pxs' r2 h2
        simp only [Except.ok.injEq, Prod.mk.injEq] at h
        obtain ⟨rfl, rfl⟩ := h
        obtain ⟨i1, i2⟩ := ih h2
        simp [i1, pixelBytes, List.append_assoc, i2, takePixel_inv h1]

/-! ### Commands -/

theorem takeCommand_data {p : Params} (h : p.sleepCode.distinct = true) (c : Command) (r : List Byte) :
    takeCommand p c.kind (c.data p ++ r) = .ok (c, r) := by
  cases c <;>
    simp [Command.kind, Command.data, takeCommand, takeF1, SleepCode.modeOf_byte h, entryOf_entryByte]

theorem takeCommand_inv {p : Params} {k : CmdKind} {l r : List Byte} {c : Command}
    (h : takeCommand p k l = .ok (c, r)) : c.kind = k ∧ c.data p ++ r = l := by
  cases k <;> simp only [takeCommand, takeF1] at h <;> (repeat' split at h) <;>
    simp only [Except.ok.injEq, Prod.mk.injEq, reduceCtorEq] at h <;> obtain ⟨rfl, rfl⟩ := h <;>
    refine ⟨rfl, ?_⟩ <;> simp_all [Command.data]
  · rename_i h
    exact SleepCode.byte_of_modeOf h
  · rename_i h
    exact entryByte_of_entryOf h

theorem bufCommandOf_kind (c : BufCommand) : bufCommandOf c.kind c.buf = some c := by cases c <;> rfl

theorem bufCommandOf_inv {k : CmdKind} {b : List Byte} {c : BufCommand} (h : bufCommandOf k b = some c) :
    c.kind = k ∧ c.buf = b := by
  cases k <;> simp [bufCommandOf] at h <;> subst h <;> exact ⟨rfl, rfl⟩

theorem bufCommandOf_command (c : Command) (b : List Byte) : bufCommandOf c.kind b = none := by cases c <;> rfl

end Sys2Proof
end

