-- ==== Sys2Proof/Laws/State.lean ====
section
/-! SUPPORT. One lemma per field per named update of the state: what the update leaves alone, and what it sets. With
these in the simp set no proof unfolds a record update. -/

namespace Sys2Proof.Machine

variable (s : State)

@[simp] theorem State.start_params (i : Instr) : (s.start i).params = s.params := rfl
@[simp] theorem State.start_cfg (i : Instr) : (s.start i).cfg = s.cfg := rfl
@[simp] theorem State.start_pos (i : Instr) : (s.start i).pos = (.running i (!legalIn i s.seq) 0) := rfl
@[simp] theorem State.start_seq (i : Instr) : (s.start i).seq = s.seq := rfl
@[simp] theorem State.start_misuse (i : Instr) : (s.start i).misuse = (s.misuse || !legalIn i s.seq) := rfl
@[simp] theorem State.start_fault (i : Instr) : (s.start i).fault = s.fault := rfl
@[simp] theorem State.start_lastErr (i : Instr) : (s.start i).lastErr = s.lastErr := rfl
@[simp] theorem State.start_busyIn (i : Instr) : (s.start i).busyIn = s.busyIn := rfl
@[simp] theorem State.start_black (i : Instr) : (s.start i).black = s.black := rfl
@[simp] theorem State.start_red (i : Instr) : (s.start i).red = s.red := rfl
@[simp] theorem State.start_trace (i : Instr) : (s.start i).trace = s.trace := rfl
@[simp] theorem State.start_responses (i : Instr) : (s.start i).responses = s.responses := rfl
@[simp] theorem State.start_inbox (i : Instr) : (s.start i).inbox = s.inbox := rfl
@[simp] theorem State.start_ctrl (i : Instr) : (s.start i).ctrl = s.ctrl.onRequest (!legalIn i s.seq) := rfl
@[simp] theorem State.start_sendPlan (i : Instr) : (s.start i).sendPlan = s.sendPlan := rfl
@[simp] theorem State.start_sendCount (i : Instr) : (s.start i).sendCount = s.sendCount := rfl
@[simp] theorem State.start_busyPlan (i : Instr) : (s.start i).busyPlan = s.busyPlan := rfl
@[simp] theorem State.start_pollCount (i : Instr) : (s.start i).pollCount = s.pollCount := rfl

@[simp] theorem State.setSeq_params (q : SeqState) : (s.setSeq q).params = s.params := rfl
@[simp] theorem State.setSeq_cfg (q : SeqState) : (s.setSeq q).cfg = s.cfg := rfl
@[simp] theorem State.setSeq_pos (q : SeqState) : (s.setSeq q).pos = s.pos := rfl
@[simp] theorem State.setSeq_seq (q : SeqState) : (s.setSeq q).seq = (if s.pos.misused then s.seq else q) := rfl
@[simp] theorem State.setSeq_misuse (q : SeqState) : (s.setSeq q).misuse = s.misuse := rfl
@[simp] theorem State.setSeq_fault (q : SeqState) : (s.setSeq q).fault = s.fault := rfl
@[simp] theorem State.setSeq_lastErr (q : SeqState) : (s.setSeq q).lastErr = s.lastErr := rfl
@[simp] theorem State.setSeq_busyIn (q : SeqState) : (s.setSeq q).busyIn = s.busyIn := rfl
@[simp] theorem State.setSeq_black (q : SeqState) : (s.setSeq q).black = s.black := rfl
@[simp] theorem State.setSeq_red (q : SeqState) : (s.setSeq q).red = s.red := rfl
@[simp] theorem State.setSeq_trace (q : SeqState) : (s.setSeq q).trace = s.trace := rfl
@[simp] theorem State.setSeq_responses (q : SeqState) : (s.setSeq q).responses = s.responses := rfl
@[simp] theorem State.setSeq_inbox (q : SeqState) : (s.setSeq q).inbox = s.inbox := rfl
@[simp] theorem State.setSeq_ctrl (q : SeqState) : (s.setSeq q).ctrl = s.ctrl := rfl
@[simp] theorem State.setSeq_sendPlan (q : SeqState) : (s.setSeq q).sendPlan = s.sendPlan := rfl
@[simp] theorem State.setSeq_sendCount (q : SeqState) : (s.setSeq q).sendCount = s.sendCount := rfl
@[simp] theorem State.setSeq_busyPlan (q : SeqState) : (s.setSeq q).busyPlan = s.busyPlan := rfl
@[simp] theorem State.setSeq_pollCount (q : SeqState) : (s.setSeq q).pollCount = s.pollCount := rfl

@[simp] theorem State.nextPos_params : s.nextPos.params = s.params := rfl
@[simp] theorem State.nextPos_cfg : s.nextPos.cfg = s.cfg := rfl
@[simp] theorem State.nextPos_seq : s.nextPos.seq = s.seq := rfl
@[simp] theorem State.nextPos_misuse : s.nextPos.misuse = s.misuse := rfl
@[simp] theorem State.nextPos_fault : s.nextPos.fault = s.fault := rfl
@[simp] theorem State.nextPos_lastErr : s.nextPos.lastErr = s.lastErr := rfl
@[simp] theorem State.nextPos_busyIn : s.nextPos.busyIn = s.busyIn := rfl
@[simp] theorem State.nextPos_black : s.nextPos.black = s.black := rfl
@[simp] theorem State.nextPos_red : s.nextPos.red = s.red := rfl
@[simp] theorem State.nextPos_trace : s.nextPos.trace = s.trace := rfl
@[simp] theorem State.nextPos_responses : s.nextPos.responses = s.responses := rfl
@[simp] theorem State.nextPos_inbox : s.nextPos.inbox = s.inbox := rfl
@[simp] theorem State.nextPos_ctrl : s.nextPos.ctrl = s.ctrl := rfl
@[simp] theorem State.nextPos_sendPlan : s.nextPos.sendPlan = s.sendPlan := rfl
@[simp] theorem State.nextPos_sendCount : s.nextPos.sendCount = s.sendCount := rfl
@[simp] theorem State.nextPos_busyPlan : s.nextPos.busyPlan = s.busyPlan := rfl
@[simp] theorem State.nextPos_pollCount : s.nextPos.pollCount = s.pollCount := rfl

@[simp] theorem State.raiseFault_params (f : FaultRecord) : (s.raiseFault f).params = s.params := rfl
@[simp] theorem State.raiseFault_cfg (f : FaultRecord) : (s.raiseFault f).cfg = s.cfg := rfl
@[simp] theorem State.raiseFault_pos (f : FaultRecord) : (s.raiseFault f).pos = (.idle) := rfl
@[simp] theorem State.raiseFault_seq (f : FaultRecord) : (s.raiseFault f).seq = s.seq := rfl
@[simp] theorem State.raiseFault_misuse (f : FaultRecord) : (s.raiseFault f).misuse = s.misuse := rfl
@[simp] theorem State.raiseFault_fault (f : FaultRecord) : (s.raiseFault f).fault = (some f) := rfl
@[simp] theorem State.raiseFault_lastErr (f : FaultRecord) : (s.raiseFault f).lastErr = s.lastErr := rfl
@[simp] theorem State.raiseFault_busyIn (f : FaultRecord) : (s.raiseFault f).busyIn = s.busyIn := rfl
@[simp] theorem State.raiseFault_black (f : FaultRecord) : (s.raiseFault f).black = s.black := rfl
@[simp] theorem State.raiseFault_red (f : FaultRecord) : (s.raiseFault f).red = s.red := rfl
@[simp] theorem State.raiseFault_trace (f : FaultRecord) : (s.raiseFault f).trace = s.trace := rfl
@[simp] theorem State.raiseFault_responses (f : FaultRecord) : (s.raiseFault f).responses = s.responses := rfl
@[simp] theorem State.raiseFault_inbox (f : FaultRecord) : (s.raiseFault f).inbox = s.inbox := rfl
@[simp] theorem State.raiseFault_ctrl (f : FaultRecord) : (s.raiseFault f).ctrl = s.ctrl := rfl
@[simp] theorem State.raiseFault_sendPlan (f : FaultRecord) : (s.raiseFault f).sendPlan = s.sendPlan := rfl
@[simp] theorem State.raiseFault_sendCount (f : FaultRecord) : (s.raiseFault f).sendCount = s.sendCount := rfl
@[simp] theorem State.raiseFault_busyPlan (f : FaultRecord) : (s.raiseFault f).busyPlan = s.busyPlan := rfl
@[simp] theorem State.raiseFault_pollCount (f : FaultRecord) : (s.raiseFault f).pollCount = s.pollCount := rfl

@[simp] theorem State.setPlane_params (p : Plane) (m : Memory) : (s.setPlane p m).params = s.params := by cases p <;> rfl
@[simp] theorem State.setPlane_cfg (p : Plane) (m : Memory) : (s.setPlane p m).cfg = s.cfg := by cases p <;> rfl
@[simp] theorem State.setPlane_pos (p : Plane) (m : Memory) : (s.setPlane p m).pos = s.pos := by cases p <;> rfl
@[simp] theorem State.setPlane_seq (p : Plane) (m : Memory) : (s.setPlane p m).seq = s.seq := by cases p <;> rfl
@[simp] theorem State.setPlane_misuse (p : Plane) (m : Memory) : (s.setPlane p m).misuse = s.misuse := by cases p <;> rfl
@[simp] theorem State.setPlane_fault (p : Plane) (m : Memory) : (s.setPlane p m).fault = s.fault := by cases p <;> rfl
@[simp] theorem State.setPlane_lastErr (p : Plane) (m : Memory) : (s.setPlane p m).lastErr = s.lastErr := by cases p <;> rfl
@[simp] theorem State.setPlane_busyIn (p : Plane) (m : Memory) : (s.setPlane p m).busyIn = s.busyIn := by cases p <;> rfl
@[simp] theorem State.setPlane_trace (p : Plane) (m : Memory) : (s.setPlane p m).trace = s.trace := by cases p <;> rfl
@[simp] theorem State.setPlane_responses (p : Plane) (m : Memory) : (s.setPlane p m).responses = s.responses := by cases p <;> rfl
@[simp] theorem State.setPlane_inbox (p : Plane) (m : Memory) : (s.setPlane p m).inbox = s.inbox := by cases p <;> rfl
@[simp] theorem State.setPlane_ctrl (p : Plane) (m : Memory) : (s.setPlane p m).ctrl = s.ctrl := by cases p <;> rfl
@[simp] theorem State.setPlane_sendPlan (p : Plane) (m : Memory) : (s.setPlane p m).sendPlan = s.sendPlan := by cases p <;> rfl
@[simp] theorem State.setPlane_sendCount (p : Plane) (m : Memory) : (s.setPlane p m).sendCount = s.sendCount := by cases p <;> rfl
@[simp] theorem State.setPlane_busyPlan (p : Plane) (m : Memory) : (s.setPlane p m).busyPlan = s.busyPlan := by cases p <;> rfl
@[simp] theorem State.setPlane_pollCount (p : Plane) (m : Memory) : (s.setPlane p m).pollCount = s.pollCount := by cases p <;> rfl

@[simp] theorem State.writeByte_params (p : Plane) (i : Nat) (v : Byte) : (s.writeByte p i v).params = s.params := by cases p <;> rfl
@[simp] theorem State.writeByte_cfg (p : Plane) (i : Nat) (v : Byte) : (s.writeByte p i v).cfg = s.cfg := by cases p <;> rfl
@[simp] theorem State.writeByte_pos (p : Plane) (i : Nat) (v : Byte) : (s.writeByte p i v).pos = s.pos := by cases p <;> rfl
@[simp] theorem State.writeByte_seq (p : Plane) (i : Nat) (v : Byte) : (s.writeByte p i v).seq = s.seq := by cases p <;> rfl
@[simp] theorem State.writeByte_misuse (p : Plane) (i : Nat) (v : Byte) : (s.writeByte p i v).misuse = s.misuse := by cases p <;> rfl
@[simp] theorem State.writeByte_fault (p : Plane) (i : Nat) (v : Byte) : (s.writeByte p i v).fault = s.fault := by cases p <;> rfl
@[simp] theorem State.writeByte_lastErr (p : Plane) (i : Nat) (v : Byte) : (s.writeByte p i v).lastErr = s.lastErr := by cases p <;> rfl
@[simp] theorem State.writeByte_busyIn (p : Plane) (i : Nat) (v : Byte) : (s.writeByte p i v).busyIn = s.busyIn := by cases p <;> rfl
@[simp] theorem State.writeByte_trace (p : Plane) (i : Nat) (v : Byte) : (s.writeByte p i v).trace = s.trace := by cases p <;> rfl
@[simp] theorem State.writeByte_responses (p : Plane) (i : Nat) (v : Byte) : (s.writeByte p i v).responses = s.responses := by cases p <;> rfl
@[simp] theorem State.writeByte_inbox (p : Plane) (i : Nat) (v : Byte) : (s.writeByte p i v).inbox = s.inbox := by cases p <;> rfl
@[simp] theorem State.writeByte_ctrl (p : Plane) (i : Nat) (v : Byte) : (s.writeByte p i v).ctrl = s.ctrl := by cases p <;> rfl
@[simp] theorem State.writeByte_sendPlan (p : Plane) (i : Nat) (v : Byte) : (s.writeByte p i v).sendPlan = s.sendPlan := by cases p <;> rfl
@[simp] theorem State.writeByte_sendCount (p : Plane) (i : Nat) (v : Byte) : (s.writeByte p i v).sendCount = s.sendCount := by cases p <;> rfl
@[simp] theorem State.writeByte_busyPlan (p : Plane) (i : Nat) (v : Byte) : (s.writeByte p i v).busyPlan = s.busyPlan := by cases p <;> rfl
@[simp] theorem State.writeByte_pollCount (p : Plane) (i : Nat) (v : Byte) : (s.writeByte p i v).pollCount = s.pollCount := by cases p <;> rfl

@[simp] theorem State.fillPlanes_params (fb fr : Byte) : (s.fillPlanes fb fr).params = s.params := rfl
@[simp] theorem State.fillPlanes_cfg (fb fr : Byte) : (s.fillPlanes fb fr).cfg = s.cfg := rfl
@[simp] theorem State.fillPlanes_pos (fb fr : Byte) : (s.fillPlanes fb fr).pos = s.pos := rfl
@[simp] theorem State.fillPlanes_seq (fb fr : Byte) : (s.fillPlanes fb fr).seq = s.seq := rfl
@[simp] theorem State.fillPlanes_misuse (fb fr : Byte) : (s.fillPlanes fb fr).misuse = s.misuse := rfl
@[simp] theorem State.fillPlanes_fault (fb fr : Byte) : (s.fillPlanes fb fr).fault = s.fault := rfl
@[simp] theorem State.fillPlanes_lastErr (fb fr : Byte) : (s.fillPlanes fb fr).lastErr = s.lastErr := rfl
@[simp] theorem State.fillPlanes_busyIn (fb fr : Byte) : (s.fillPlanes fb fr).busyIn = s.busyIn := rfl
@[simp] theorem State.fillPlanes_black (fb fr : Byte) : (s.fillPlanes fb fr).black = (s.black.fill fb s.cfg.planeLen) := rfl
@[simp] theorem State.fillPlanes_red (fb fr : Byte) : (s.fillPlanes fb fr).red = (s.red.fill fr s.cfg.planeLen) := rfl
@[simp] theorem State.fillPlanes_trace (fb fr : Byte) : (s.fillPlanes fb fr).trace = s.trace := rfl
@[simp] theorem State.fillPlanes_responses (fb fr : Byte) : (s.fillPlanes fb fr).responses = s.responses := rfl
@[simp] theorem State.fillPlanes_inbox (fb fr : Byte) : (s.fillPlanes fb fr).inbox = s.inbox := rfl
@[simp] theorem State.fillPlanes_ctrl (fb fr : Byte) : (s.fillPlanes fb fr).ctrl = s.ctrl := rfl
@[simp] theorem State.fillPlanes_sendPlan (fb fr : Byte) : (s.fillPlanes fb fr).sendPlan = s.sendPlan := rfl
@[simp] theorem State.fillPlanes_sendCount (fb fr : Byte) : (s.fillPlanes fb fr).sendCount = s.sendCount := rfl
@[simp] theorem State.fillPlanes_busyPlan (fb fr : Byte) : (s.fillPlanes fb fr).busyPlan = s.busyPlan := rfl
@[simp] theorem State.fillPlanes_pollCount (fb fr : Byte) : (s.fillPlanes fb fr).pollCount = s.pollCount := rfl

@[simp] theorem State.applyAt_params (i : Nat) (m : Byte) (c : Color) : (s.applyAt i m c).params = s.params := rfl
@[simp] theorem State.applyAt_cfg (i : Nat) (m : Byte) (c : Color) : (s.applyAt i m c).cfg = s.cfg := rfl
@[simp] theorem State.applyAt_pos (i : Nat) (m : Byte) (c : Color) : (s.applyAt i m c).pos = s.pos := rfl
@[simp] theorem State.applyAt_seq (i : Nat) (m : Byte) (c : Color) : (s.applyAt i m c).seq = s.seq := rfl
@[simp] theorem State.applyAt_misuse (i : Nat) (m : Byte) (c : Color) : (s.applyAt i m c).misuse = s.misuse := rfl
@[simp] theorem State.applyAt_fault (i : Nat) (m : Byte) (c : Color) : (s.applyAt i m c).fault = s.fault := rfl
@[simp] theorem State.applyAt_lastErr (i : Nat) (m : Byte) (c : Color) : (s.applyAt i m c).lastErr = s.lastErr := rfl
@[simp] theorem State.applyAt_busyIn (i : Nat) (m : Byte) (c : Color) : (s.applyAt i m c).busyIn = s.busyIn := rfl
@[simp] theorem State.applyAt_trace (i : Nat) (m : Byte) (c : Color) : (s.applyAt i m c).trace = s.trace := rfl
@[simp] theorem State.applyAt_responses (i : Nat) (m : Byte) (c : Color) : (s.applyAt i m c).responses = s.responses := rfl
@[simp] theorem State.applyAt_inbox (i : Nat) (m : Byte) (c : Color) : (s.applyAt i m c).inbox = s.inbox := rfl
@[simp] theorem State.applyAt_ctrl (i : Nat) (m : Byte) (c : Color) : (s.applyAt i m c).ctrl = s.ctrl := rfl
@[simp] theorem State.applyAt_sendPlan (i : Nat) (m : Byte) (c : Color) : (s.applyAt i m c).sendPlan = s.sendPlan := rfl
@[simp] theorem State.applyAt_sendCount (i : Nat) (m : Byte) (c : Color) : (s.applyAt i m c).sendCount = s.sendCount := rfl
@[simp] theorem State.applyAt_busyPlan (i : Nat) (m : Byte) (c : Color) : (s.applyAt i m c).busyPlan = s.busyPlan := rfl
@[simp] theorem State.applyAt_pollCount (i : Nat) (m : Byte) (c : Color) : (s.applyAt i m c).pollCount = s.pollCount := rfl

@[simp] theorem State.drawPixel_params (px : Pixel) : (s.drawPixel px).params = s.params := by unfold State.drawPixel; split <;> rfl
@[simp] theorem State.drawPixel_cfg (px : Pixel) : (s.drawPixel px).cfg = s.cfg := by unfold State.drawPixel; split <;> rfl
@[simp] theorem State.drawPixel_pos (px : Pixel) : (s.drawPixel px).pos = s.pos := by unfold State.drawPixel; split <;> rfl
@[simp] theorem State.drawPixel_seq (px : Pixel) : (s.drawPixel px).seq = s.seq := by unfold State.drawPixel; split <;> rfl
@[simp] theorem State.drawPixel_misuse (px : Pixel) : (s.drawPixel px).misuse = s.misuse := by unfold State.drawPixel; split <;> rfl
@[simp] theorem State.drawPixel_fault (px : Pixel) : (s.drawPixel px).fault = s.fault := by unfold State.drawPixel; split <;> rfl
@[simp] theorem State.drawPixel_lastErr (px : Pixel) : (s.drawPixel px).lastErr = s.lastErr := by unfold State.drawPixel; split <;> rfl
@[simp] theorem State.drawPixel_busyIn (px : Pixel) : (s.drawPixel px).busyIn = s.busyIn := by unfold State.drawPixel; split <;> rfl
@[simp] theorem State.drawPixel_trace (px : Pixel) : (s.drawPixel px).trace = s.trace := by unfold State.drawPixel; split <;> rfl
@[simp] theorem State.drawPixel_responses (px : Pixel) : (s.drawPixel px).responses = s.responses := by unfold State.drawPixel; split <;> rfl
@[simp] theorem State.drawPixel_inbox (px : Pixel) : (s.drawPixel px).inbox = s.inbox := by unfold State.drawPixel; split <;> rfl
@[simp] theorem State.drawPixel_ctrl (px : Pixel) : (s.drawPixel px).ctrl = s.ctrl := by unfold State.drawPixel; split <;> rfl
@[simp] theorem State.drawPixel_sendPlan (px : Pixel) : (s.drawPixel px).sendPlan = s.sendPlan := by unfold State.drawPixel; split <;> rfl
@[simp] theorem State.drawPixel_sendCount (px : Pixel) : (s.drawPixel px).sendCount = s.sendCount := by unfold State.drawPixel; split <;> rfl
@[simp] theorem State.drawPixel_busyPlan (px : Pixel) : (s.drawPixel px).busyPlan = s.busyPlan := by unfold State.drawPixel; split <;> rfl
@[simp] theorem State.drawPixel_pollCount (px : Pixel) : (s.drawPixel px).pollCount = s.pollCount := by unfold State.drawPixel; split <;> rfl

@[simp] theorem State.record_params (e : Event) : (s.record e).params = s.params := rfl
@[simp] theorem State.record_cfg (e : Event) : (s.record e).cfg = s.cfg := rfl
@[simp] theorem State.record_pos (e : Event) : (s.record e).pos = s.pos := rfl
@[simp] theorem State.record_seq (e : Event) : (s.record e).seq = s.seq := rfl
@[simp] theorem State.record_misuse (e : Event) : (s.record e).misuse = s.misuse := rfl
@[simp] theorem State.record_fault (e : Event) : (s.record e).fault = s.fault := rfl
@[simp] theorem State.record_lastErr (e : Event) : (s.record e).lastErr = s.lastErr := rfl
@[simp] theorem State.record_busyIn (e : Event) : (s.record e).busyIn = s.busyIn := rfl
@[simp] theorem State.record_black (e : Event) : (s.record e).black = s.black := rfl
@[simp] theorem State.record_red (e : Event) : (s.record e).red = s.red := rfl
@[simp] theorem State.record_trace (e : Event) : (s.record e).trace = (s.trace ++ [e]) := rfl
@[simp] theorem State.record_responses (e : Event) : (s.record e).responses = s.responses := rfl
@[simp] theorem State.record_inbox (e : Event) : (s.record e).inbox = s.inbox := rfl
@[simp] theorem State.record_ctrl (e : Event) : (s.record e).ctrl = s.ctrl := rfl
@[simp] theorem State.record_sendPlan (e : Event) : (s.record e).sendPlan = s.sendPlan := rfl
@[simp] theorem State.record_sendCount (e : Event) : (s.record e).sendCount = s.sendCount := rfl
@[simp] theorem State.record_busyPlan (e : Event) : (s.record e).busyPlan = s.busyPlan := rfl
@[simp] theorem State.record_pollCount (e : Event) : (s.record e).pollCount = s.pollCount := rfl

@[simp] theorem State.emitResetPulse_params : s.emitResetPulse.params = s.params := rfl
@[simp] theorem State.emitResetPulse_cfg : s.emitResetPulse.cfg = s.cfg := rfl
@[simp] theorem State.emitResetPulse_pos : s.emitResetPulse.pos = s.pos := rfl
@[simp] theorem State.emitResetPulse_seq : s.emitResetPulse.seq = s.seq := rfl
@[simp] theorem State.emitResetPulse_misuse : s.emitResetPulse.misuse = s.misuse := rfl
@[simp] theorem State.emitResetPulse_fault : s.emitResetPulse.fault = s.fault := rfl
@[simp] theorem State.emitResetPulse_lastErr : s.emitResetPulse.lastErr = s.lastErr := rfl
@[simp] theorem State.emitResetPulse_busyIn : s.emitResetPulse.busyIn = s.busyIn := rfl
@[simp] theorem State.emitResetPulse_black : s.emitResetPulse.black = s.black := rfl
@[simp] theorem State.emitResetPulse_red : s.emitResetPulse.red = s.red := rfl
@[simp] theorem State.emitResetPulse_trace : s.emitResetPulse.trace = (s.trace ++ [.resetPulse]) := rfl
@[simp] theorem State.emitResetPulse_responses : s.emitResetPulse.responses = s.responses := rfl
@[simp] theorem State.emitResetPulse_inbox : s.emitResetPulse.inbox = s.inbox := rfl
@[simp] theorem State.emitResetPulse_ctrl : s.emitResetPulse.ctrl = s.ctrl := rfl
@[simp] theorem State.emitResetPulse_sendPlan : s.emitResetPulse.sendPlan = s.sendPlan := rfl
@[simp] theorem State.emitResetPulse_sendCount : s.emitResetPulse.sendCount = s.sendCount := rfl
@[simp] theorem State.emitResetPulse_busyPlan : s.emitResetPulse.busyPlan = s.busyPlan := rfl
@[simp] theorem State.emitResetPulse_pollCount : s.emitResetPulse.pollCount = s.pollCount := rfl

@[simp] theorem State.emitDelay_params (ms : Nat) : (s.emitDelay ms).params = s.params := rfl
@[simp] theorem State.emitDelay_cfg (ms : Nat) : (s.emitDelay ms).cfg = s.cfg := rfl
@[simp] theorem State.emitDelay_pos (ms : Nat) : (s.emitDelay ms).pos = s.pos := rfl
@[simp] theorem State.emitDelay_seq (ms : Nat) : (s.emitDelay ms).seq = s.seq := rfl
@[simp] theorem State.emitDelay_misuse (ms : Nat) : (s.emitDelay ms).misuse = s.misuse := rfl
@[simp] theorem State.emitDelay_fault (ms : Nat) : (s.emitDelay ms).fault = s.fault := rfl
@[simp] theorem State.emitDelay_lastErr (ms : Nat) : (s.emitDelay ms).lastErr = s.lastErr := rfl
@[simp] theorem State.emitDelay_busyIn (ms : Nat) : (s.emitDelay ms).busyIn = s.busyIn := rfl
@[simp] theorem State.emitDelay_black (ms : Nat) : (s.emitDelay ms).black = s.black := rfl
@[simp] theorem State.emitDelay_red (ms : Nat) : (s.emitDelay ms).red = s.red := rfl
@[simp] theorem State.emitDelay_trace (ms : Nat) : (s.emitDelay ms).trace = (s.trace ++ [.delay ms]) := rfl
@[simp] theorem State.emitDelay_responses (ms : Nat) : (s.emitDelay ms).responses = s.responses := rfl
@[simp] theorem State.emitDelay_inbox (ms : Nat) : (s.emitDelay ms).inbox = s.inbox := rfl
@[simp] theorem State.emitDelay_ctrl (ms : Nat) : (s.emitDelay ms).ctrl = s.ctrl := rfl
@[simp] theorem State.emitDelay_sendPlan (ms : Nat) : (s.emitDelay ms).sendPlan = s.sendPlan := rfl
@[simp] theorem State.emitDelay_sendCount (ms : Nat) : (s.emitDelay ms).sendCount = s.sendCount := rfl
@[simp] theorem State.emitDelay_busyPlan (ms : Nat) : (s.emitDelay ms).busyPlan = s.busyPlan := rfl
@[simp] theorem State.emitDelay_pollCount (ms : Nat) : (s.emitDelay ms).pollCount = s.pollCount := rfl

@[simp] theorem State.transportError_params (e : TransportError) : (s.transportError e).params = s.params := rfl
@[simp] theorem State.transportError_cfg (e : TransportError) : (s.transportError e).cfg = s.cfg := rfl
@[simp] theorem State.transportError_pos (e : TransportError) : (s.transportError e).pos = (.idle) := rfl
@[simp] theorem State.transportError_seq (e : TransportError) : (s.transportError e).seq = (.errored) := rfl
@[simp] theorem State.transportError_misuse (e : TransportError) : (s.transportError e).misuse = s.misuse := rfl
@[simp] theorem State.transportError_fault (e : TransportError) : (s.transportError e).fault = s.fault := rfl
@[simp] theorem State.transportError_lastErr (e : TransportError) : (s.transportError e).lastErr = (some e) := rfl
@[simp] theorem State.transportError_busyIn (e : TransportError) : (s.transportError e).busyIn = s.busyIn := rfl
@[simp] theorem State.transportError_black (e : TransportError) : (s.transportError e).black = s.black := rfl
@[simp] theorem State.transportError_red (e : TransportError) : (s.transportError e).red = s.red := rfl
@[simp] theorem State.transportError_trace (e : TransportError) : (s.transportError e).trace = s.trace := rfl
@[simp] theorem State.transportError_responses (e : TransportError) : (s.transportError e).responses = (s.responses ++ [.errTransport e]) := rfl
@[simp] theorem State.transportError_inbox (e : TransportError) : (s.transportError e).inbox = s.inbox := rfl
@[simp] theorem State.transportError_ctrl (e : TransportError) : (s.transportError e).ctrl = (s.ctrl.forget) := rfl
@[simp] theorem State.transportError_sendPlan (e : TransportError) : (s.transportError e).sendPlan = s.sendPlan := rfl
@[simp] theorem State.transportError_sendCount (e : TransportError) : (s.transportError e).sendCount = s.sendCount := rfl
@[simp] theorem State.transportError_busyPlan (e : TransportError) : (s.transportError e).busyPlan = s.busyPlan := rfl
@[simp] theorem State.transportError_pollCount (e : TransportError) : (s.transportError e).pollCount = s.pollCount := rfl

@[simp] theorem State.finish_params (r : Response) : (s.finish r).params = s.params := rfl
@[simp] theorem State.finish_cfg (r : Response) : (s.finish r).cfg = s.cfg := rfl
@[simp] theorem State.finish_pos (r : Response) : (s.finish r).pos = (.idle) := rfl
@[simp] theorem State.finish_seq (r : Response) : (s.finish r).seq = s.seq := rfl
@[simp] theorem State.finish_misuse (r : Response) : (s.finish r).misuse = s.misuse := rfl
@[simp] theorem State.finish_fault (r : Response) : (s.finish r).fault = s.fault := rfl
@[simp] theorem State.finish_lastErr (r : Response) : (s.finish r).lastErr = s.lastErr := rfl
@[simp] theorem State.finish_busyIn (r : Response) : (s.finish r).busyIn = s.busyIn := rfl
@[simp] theorem State.finish_black (r : Response) : (s.finish r).black = s.black := rfl
@[simp] theorem State.finish_red (r : Response) : (s.finish r).red = s.red := rfl
@[simp] theorem State.finish_trace (r : Response) : (s.finish r).trace = s.trace := rfl
@[simp] theorem State.finish_responses (r : Response) : (s.finish r).responses = (s.responses ++ [r]) := rfl
@[simp] theorem State.finish_inbox (r : Response) : (s.finish r).inbox = s.inbox := rfl
@[simp] theorem State.finish_ctrl (r : Response) : (s.finish r).ctrl = s.ctrl := rfl
@[simp] theorem State.finish_sendPlan (r : Response) : (s.finish r).sendPlan = s.sendPlan := rfl
@[simp] theorem State.finish_sendCount (r : Response) : (s.finish r).sendCount = s.sendCount := rfl
@[simp] theorem State.finish_busyPlan (r : Response) : (s.finish r).busyPlan = s.busyPlan := rfl
@[simp] theorem State.finish_pollCount (r : Response) : (s.finish r).pollCount = s.pollCount := rfl

@[simp] theorem State.finishExec_params : s.finishExec.params = s.params := rfl
@[simp] theorem State.finishExec_cfg : s.finishExec.cfg = s.cfg := rfl
@[simp] theorem State.finishExec_pos : s.finishExec.pos = (.idle) := rfl
@[simp] theorem State.finishExec_seq : s.finishExec.seq = s.seq := rfl
@[simp] theorem State.finishExec_misuse : s.finishExec.misuse = s.misuse := rfl
@[simp] theorem State.finishExec_fault : s.finishExec.fault = s.fault := rfl
@[simp] theorem State.finishExec_lastErr : s.finishExec.lastErr = (none) := rfl
@[simp] theorem State.finishExec_busyIn : s.finishExec.busyIn = s.busyIn := rfl
@[simp] theorem State.finishExec_black : s.finishExec.black = s.black := rfl
@[simp] theorem State.finishExec_red : s.finishExec.red = s.red := rfl
@[simp] theorem State.finishExec_trace : s.finishExec.trace = s.trace := rfl
@[simp] theorem State.finishExec_responses : s.finishExec.responses = (s.responses ++ [.ok]) := rfl
@[simp] theorem State.finishExec_inbox : s.finishExec.inbox = s.inbox := rfl
@[simp] theorem State.finishExec_ctrl : s.finishExec.ctrl = s.ctrl := rfl
@[simp] theorem State.finishExec_sendPlan : s.finishExec.sendPlan = s.sendPlan := rfl
@[simp] theorem State.finishExec_sendCount : s.finishExec.sendCount = s.sendCount := rfl
@[simp] theorem State.finishExec_busyPlan : s.finishExec.busyPlan = s.busyPlan := rfl
@[simp] theorem State.finishExec_pollCount : s.finishExec.pollCount = s.pollCount := rfl

@[simp] theorem State.finishReset_params : s.finishReset.params = s.params := rfl
@[simp] theorem State.finishReset_cfg : s.finishReset.cfg = s.cfg := rfl
@[simp] theorem State.finishReset_pos : s.finishReset.pos = (.idle) := rfl
@[simp] theorem State.finishReset_seq : s.finishReset.seq = (if s.pos.misused then s.seq else .ready) := rfl
@[simp] theorem State.finishReset_misuse : s.finishReset.misuse = s.misuse := rfl
@[simp] theorem State.finishReset_fault : s.finishReset.fault = s.fault := rfl
@[simp] theorem State.finishReset_lastErr : s.finishReset.lastErr = (none) := rfl
@[simp] theorem State.finishReset_busyIn : s.finishReset.busyIn = s.busyIn := rfl
@[simp] theorem State.finishReset_black : s.finishReset.black = s.black := rfl
@[simp] theorem State.finishReset_red : s.finishReset.red = s.red := rfl
@[simp] theorem State.finishReset_trace : s.finishReset.trace = s.trace := rfl
@[simp] theorem State.finishReset_responses : s.finishReset.responses = (s.responses ++ [.ok]) := rfl
@[simp] theorem State.finishReset_inbox : s.finishReset.inbox = s.inbox := rfl
@[simp] theorem State.finishReset_ctrl : s.finishReset.ctrl = (s.ctrl.afterReset s.cfg.lut) := rfl
@[simp] theorem State.finishReset_sendPlan : s.finishReset.sendPlan = s.sendPlan := rfl
@[simp] theorem State.finishReset_sendCount : s.finishReset.sendCount = s.sendCount := rfl
@[simp] theorem State.finishReset_busyPlan : s.finishReset.busyPlan = s.busyPlan := rfl
@[simp] theorem State.finishReset_pollCount : s.finishReset.pollCount = s.pollCount := rfl

@[simp] theorem State.finishUpdate_params (black red : List Byte) : (s.finishUpdate black red).params = s.params := rfl
@[simp] theorem State.finishUpdate_cfg (black red : List Byte) : (s.finishUpdate black red).cfg = s.cfg := rfl
@[simp] theorem State.finishUpdate_pos (black red : List Byte) : (s.finishUpdate black red).pos = (.idle) := rfl
@[simp] theorem State.finishUpdate_seq (black red : List Byte) : (s.finishUpdate black red).seq = (if s.pos.misused then s.seq else .ready) := rfl
@[simp] theorem State.finishUpdate_misuse (black red : List Byte) : (s.finishUpdate black red).misuse = s.misuse := rfl
@[simp] theorem State.finishUpdate_fault (black red : List Byte) : (s.finishUpdate black red).fault = s.fault := rfl
@[simp] theorem State.finishUpdate_lastErr (black red : List Byte) : (s.finishUpdate black red).lastErr = (none) := rfl
@[simp] theorem State.finishUpdate_busyIn (black red : List Byte) : (s.finishUpdate black red).busyIn = s.busyIn := rfl
@[simp] theorem State.finishUpdate_black (black red : List Byte) : (s.finishUpdate black red).black = s.black := rfl
@[simp] theorem State.finishUpdate_red (black red : List Byte) : (s.finishUpdate black red).red = s.red := rfl
@[simp] theorem State.finishUpdate_trace (black red : List Byte) : (s.finishUpdate black red).trace = s.trace := rfl
@[simp] theorem State.finishUpdate_responses (black red : List Byte) : (s.finishUpdate black red).responses = (s.responses ++ [.ok]) := rfl
@[simp] theorem State.finishUpdate_inbox (black red : List Byte) : (s.finishUpdate black red).inbox = s.inbox := rfl
@[simp] theorem State.finishUpdate_ctrl (black red : List Byte) : (s.finishUpdate black red).ctrl = (s.ctrl.afterUpdate black red) := rfl
@[simp] theorem State.finishUpdate_sendPlan (black red : List Byte) : (s.finishUpdate black red).sendPlan = s.sendPlan := rfl
@[simp] theorem State.finishUpdate_sendCount (black red : List Byte) : (s.finishUpdate black red).sendCount = s.sendCount := rfl
@[simp] theorem State.finishUpdate_busyPlan (black red : List Byte) : (s.finishUpdate black red).busyPlan = s.busyPlan := rfl
@[simp] theorem State.finishUpdate_pollCount (black red : List Byte) : (s.finishUpdate black red).pollCount = s.pollCount := rfl

@[simp] theorem State.finishSleep_params : s.finishSleep.params = s.params := rfl
@[simp] theorem State.finishSleep_cfg : s.finishSleep.cfg = s.cfg := rfl
@[simp] theorem State.finishSleep_pos : s.finishSleep.pos = (.idle) := rfl
@[simp] theorem State.finishSleep_seq : s.finishSleep.seq = (if s.pos.misused then s.seq else .sleeping) := rfl
@[simp] theorem State.finishSleep_misuse : s.finishSleep.misuse = s.misuse := rfl
@[simp] theorem State.finishSleep_fault : s.finishSleep.fault = s.fault := rfl
@[simp] theorem State.finishSleep_lastErr : s.finishSleep.lastErr = (none) := rfl
@[simp] theorem State.finishSleep_busyIn : s.finishSleep.busyIn = s.busyIn := rfl
@[simp] theorem State.finishSleep_black : s.finishSleep.black = s.black := rfl
@[simp] theorem State.finishSleep_red : s.finishSleep.red = s.red := rfl
@[simp] theorem State.finishSleep_trace : s.finishSleep.trace = s.trace := rfl
@[simp] theorem State.finishSleep_responses : s.finishSleep.responses = (s.responses ++ [.ok]) := rfl
@[simp] theorem State.finishSleep_inbox : s.finishSleep.inbox = s.inbox := rfl
@[simp] theorem State.finishSleep_ctrl : s.finishSleep.ctrl = (s.ctrl.afterSleep) := rfl
@[simp] theorem State.finishSleep_sendPlan : s.finishSleep.sendPlan = s.sendPlan := rfl
@[simp] theorem State.finishSleep_sendCount : s.finishSleep.sendCount = s.sendCount := rfl
@[simp] theorem State.finishSleep_busyPlan : s.finishSleep.busyPlan = s.busyPlan := rfl
@[simp] theorem State.finishSleep_pollCount : s.finishSleep.pollCount = s.pollCount := rfl

@[simp] theorem State.finishStatus_params : s.finishStatus.params = s.params := rfl
@[simp] theorem State.finishStatus_cfg : s.finishStatus.cfg = s.cfg := rfl
@[simp] theorem State.finishStatus_pos : s.finishStatus.pos = (.idle) := rfl
@[simp] theorem State.finishStatus_seq : s.finishStatus.seq = s.seq := rfl
@[simp] theorem State.finishStatus_misuse : s.finishStatus.misuse = s.misuse := rfl
@[simp] theorem State.finishStatus_fault : s.finishStatus.fault = s.fault := rfl
@[simp] theorem State.finishStatus_lastErr : s.finishStatus.lastErr = s.lastErr := rfl
@[simp] theorem State.finishStatus_busyIn : s.finishStatus.busyIn = s.busyIn := rfl
@[simp] theorem State.finishStatus_black : s.finishStatus.black = s.black := rfl
@[simp] theorem State.finishStatus_red : s.finishStatus.red = s.red := rfl
@[simp] theorem State.finishStatus_trace : s.finishStatus.trace = s.trace := rfl
@[simp] theorem State.finishStatus_responses : s.finishStatus.responses = (s.responses ++ [.okStatus s.seq s.misuse s.lastErr]) := rfl
@[simp] theorem State.finishStatus_inbox : s.finishStatus.inbox = s.inbox := rfl
@[simp] theorem State.finishStatus_ctrl : s.finishStatus.ctrl = s.ctrl := rfl
@[simp] theorem State.finishStatus_sendPlan : s.finishStatus.sendPlan = s.sendPlan := rfl
@[simp] theorem State.finishStatus_sendCount : s.finishStatus.sendCount = s.sendCount := rfl
@[simp] theorem State.finishStatus_busyPlan : s.finishStatus.busyPlan = s.busyPlan := rfl
@[simp] theorem State.finishStatus_pollCount : s.finishStatus.pollCount = s.pollCount := rfl

@[simp] theorem State.finishRead_params (p : Plane) (i : Nat) : (s.finishRead p i).params = s.params := rfl
@[simp] theorem State.finishRead_cfg (p : Plane) (i : Nat) : (s.finishRead p i).cfg = s.cfg := rfl
@[simp] theorem State.finishRead_pos (p : Plane) (i : Nat) : (s.finishRead p i).pos = (.idle) := rfl
@[simp] theorem State.finishRead_seq (p : Plane) (i : Nat) : (s.finishRead p i).seq = s.seq := rfl
@[simp] theorem State.finishRead_misuse (p : Plane) (i : Nat) : (s.finishRead p i).misuse = s.misuse := rfl
@[simp] theorem State.finishRead_fault (p : Plane) (i : Nat) : (s.finishRead p i).fault = s.fault := rfl
@[simp] theorem State.finishRead_lastErr (p : Plane) (i : Nat) : (s.finishRead p i).lastErr = s.lastErr := rfl
@[simp] theorem State.finishRead_busyIn (p : Plane) (i : Nat) : (s.finishRead p i).busyIn = s.busyIn := rfl
@[simp] theorem State.finishRead_black (p : Plane) (i : Nat) : (s.finishRead p i).black = s.black := rfl
@[simp] theorem State.finishRead_red (p : Plane) (i : Nat) : (s.finishRead p i).red = s.red := rfl
@[simp] theorem State.finishRead_trace (p : Plane) (i : Nat) : (s.finishRead p i).trace = s.trace := rfl
@[simp] theorem State.finishRead_responses (p : Plane) (i : Nat) : (s.finishRead p i).responses = (s.responses ++ [.okByte (s.readByte p i)]) := rfl
@[simp] theorem State.finishRead_inbox (p : Plane) (i : Nat) : (s.finishRead p i).inbox = s.inbox := rfl
@[simp] theorem State.finishRead_ctrl (p : Plane) (i : Nat) : (s.finishRead p i).ctrl = s.ctrl := rfl
@[simp] theorem State.finishRead_sendPlan (p : Plane) (i : Nat) : (s.finishRead p i).sendPlan = s.sendPlan := rfl
@[simp] theorem State.finishRead_sendCount (p : Plane) (i : Nat) : (s.finishRead p i).sendCount = s.sendCount := rfl
@[simp] theorem State.finishRead_busyPlan (p : Plane) (i : Nat) : (s.finishRead p i).busyPlan = s.busyPlan := rfl
@[simp] theorem State.finishRead_pollCount (p : Plane) (i : Nat) : (s.finishRead p i).pollCount = s.pollCount := rfl

end Sys2Proof.Machine
end

