-- ==== Sys2Proof/Laws/Memory.lean ====
section
/-! SUPPORT. Plane memory: a read after a write, what a write leaves alone, and that every operation keeps the
canonical form and the bound on the indices. -/

namespace Sys2Proof.Machine

/-! ### Lookup -/

theorem Memory.lookup_store (m : Memory) (i j : Nat) (v : Byte) :
    (m.store i v).lookup j = if j = i then some v else m.lookup j := by
  induction m with
  | nil => simp [Memory.store, Memory.lookup, eq_comm]
  | cons c m ih =>
    obtain ⟨a, b⟩ := c
    by_cases hj : j = i
    · subst hj
      simp only [Memory.store]
      repeat' split
      all_goals simp_all [Memory.lookup]
      omega
    · have hi : i ≠ j := Ne.symm hj
      simp only [Memory.store]
      repeat' split
      all_goals simp_all [Memory.lookup]

theorem Memory.lookup_fill (m : Memory) (v : Byte) (n j : Nat) :
    (m.fill v n).lookup j = if j < n then some v else m.lookup j := by
  induction n with
  | zero => simp [Memory.fill]
  | succ n ih =>
    rw [Memory.fill, Memory.lookup_store, ih]
    by_cases h1 : j = n
    · simp [h1]
    · by_cases h2 : j < n
      · simp [h1, h2, Nat.lt_succ_of_lt h2]
      · simp [h1, h2, show ¬ j < n + 1 by omega]

/-! ### The canonical form -/

theorem Memory.risingFrom_store (m : Memory) (i : Nat) (v : Byte) (lo : Nat) (hlo : lo ≤ i)
    (h : m.risingFrom lo = true) : (m.store i v).risingFrom lo = true := by
  induction m generalizing lo with
  | nil => simp [Memory.store, Memory.risingFrom, hlo]
  | cons c m ih =>
    obtain ⟨a, b⟩ := c
    simp only [Memory.risingFrom, Bool.and_eq_true, decide_eq_true_eq] at h
    simp only [Memory.store]
    split
    · simp only [Memory.risingFrom, Bool.and_eq_true, decide_eq_true_eq]
      exact ⟨hlo, by omega, h.2⟩
    · split
      · simp only [Memory.risingFrom, Bool.and_eq_true, decide_eq_true_eq]
        subst_vars
        exact ⟨hlo, h.2⟩
      · simp only [Memory.risingFrom, Bool.and_eq_true, decide_eq_true_eq]
        exact ⟨h.1, ih (a + 1) (by omega) h.2⟩

theorem Memory.wf_store {m : Memory} (h : m.wf = true) (i : Nat) (v : Byte) : (m.store i v).wf = true :=
  Memory.risingFrom_store m i v 0 (Nat.zero_le i) h

theorem Memory.wf_fill {m : Memory} (h : m.wf = true) (v : Byte) (n : Nat) : (m.fill v n).wf = true := by
  induction n with
  | zero => exact h
  | succ n ih => exact Memory.wf_store ih n v

/-! ### The bound on the indices -/

theorem Memory.below_store {m : Memory} {n : Nat} (h : m.below n = true) {i : Nat} (hi : i < n) (v : Byte) :
    (m.store i v).below n = true := by
  induction m with
  | nil => simp [Memory.store, Memory.below, hi]
  | cons c m ih =>
    obtain ⟨a, b⟩ := c
    simp only [Memory.below, List.all_cons, Bool.and_eq_true, decide_eq_true_eq] at h ih ⊢
    simp only [Memory.store]
    split
    · simp only [List.all_cons, Bool.and_eq_true, decide_eq_true_eq]
      exact ⟨hi, h⟩
    · split
      · simp only [List.all_cons, Bool.and_eq_true, decide_eq_true_eq]
        exact ⟨hi, h.2⟩
      · simp only [List.all_cons, Bool.and_eq_true, decide_eq_true_eq]
        exact ⟨h.1, ih h.2⟩

theorem Memory.below_fill {m : Memory} {n : Nat} (h : m.below n = true) (v : Byte) {k : Nat} (hk : k ≤ n) :
    (m.fill v k).below n = true := by
  induction k with
  | zero => exact h
  | succ k ih => exact Memory.below_store (ih (by omega)) (by omega) v

/-! ### Reads of the state -/

theorem State.readByte_writeByte (s : State) (p q : Plane) (i j : Nat) (v : Byte) :
    (s.writeByte p i v).readByte q j = if q = p ∧ j = i then v else s.readByte q j := by
  cases p <;> cases q <;>
    simp only [State.readByte, State.writeByte, State.setPlane, State.plane, Memory.lookup_store, reduceCtorEq,
      false_and, true_and, if_false]
  all_goals by_cases h : j = i <;> simp [h]

theorem State.readByte_fillPlanes (s : State) (fb fr : Byte) (p : Plane) (i : Nat) :
    (s.fillPlanes fb fr).readByte p i =
      if i < s.cfg.planeLen then (match p with
        | .black => fb
        | .red => fr)
      else s.readByte p i := by
  cases p <;> simp only [State.readByte, State.fillPlanes, State.plane, Memory.lookup_fill] <;>
    by_cases h : i < s.cfg.planeLen <;> simp [h]

theorem State.readByte_applyAt (s : State) (i : Nat) (m : Byte) (c : Color) (p : Plane) (j : Nat) :
    (s.applyAt i m c).readByte p j =
      if j = i then (match p with
        | .black => (applyColor c m (s.readByte .black i) (s.readByte .red i)).1
        | .red => (applyColor c m (s.readByte .black i) (s.readByte .red i)).2)
      else s.readByte p j := by
  cases p <;> simp [State.applyAt, State.readByte_writeByte]

@[simp] theorem State.planeBytesFrom_length (s : State) (p : Plane) (i n : Nat) :
    (s.planeBytesFrom p i n).length = n := by
  induction n generalizing i with
  | zero => rfl
  | succ n ih => simp [State.planeBytesFrom, ih]

@[simp] theorem State.planeBytes_length (s : State) (p : Plane) : (s.planeBytes p).length = s.cfg.planeLen :=
  State.planeBytesFrom_length s p 0 _

/-- The plane's bytes depend on the plane alone. -/
theorem State.planeBytesFrom_congr {s t : State} (p : Plane) (h : s.plane p = t.plane p) (i n : Nat) :
    s.planeBytesFrom p i n = t.planeBytesFrom p i n := by
  induction n generalizing i with
  | zero => rfl
  | succ n ih => simp [State.planeBytesFrom, State.readByte, h, ih]

end Sys2Proof.Machine
end

