-- ==== Sys2Proof/Laws/Ops.lean ====
section
/-! SUPPORT. What each shared operation can do, said once: the controller fields, one send, one frame,
`encode_and_send`, and the busy-wait. -/

namespace Sys2Proof.Machine

/-! ### The controller fields -/

@[simp] theorem Ctrl.onFrame_longOp (c : Ctrl) : c.onFrame.longOp = c.longOp := by
  unfold Ctrl.onFrame; split <;> rfl

@[simp] theorem Ctrl.onFrame_onFrame (c : Ctrl) : c.onFrame.onFrame = c.onFrame := by
  cases h : c.longOp <;> simp [Ctrl.onFrame, h, Ctrl.forget]

@[simp] theorem Ctrl.onFrame_of_not_longOp {c : Ctrl} (h : c.longOp = false) : c.onFrame = c := by
  simp [Ctrl.onFrame, h]

@[simp] theorem Ctrl.forget_onFrame (c : Ctrl) : c.onFrame.forget = c.forget := by
  cases h : c.longOp <;> simp [Ctrl.onFrame, h, Ctrl.forget]

@[simp] theorem Ctrl.onFrame_forget (c : Ctrl) : c.forget.onFrame = c.forget := by
  cases h : c.longOp <;> simp [Ctrl.onFrame, h, Ctrl.forget]

@[simp] theorem Ctrl.onRequest_false (c : Ctrl) : c.onRequest false = c := rfl

@[simp] theorem Ctrl.onRequest_true (c : Ctrl) : c.onRequest true = c.forget := rfl

@[simp] theorem Ctrl.onRequest_longOp (b : Bool) (c : Ctrl) : (c.onRequest b).longOp = c.longOp := by
  cases b <;> rfl

theorem Ctrl.afterFrame_of_not_long {k : CmdKind} (h : isLongOp k = false) (c : Ctrl) : c.afterFrame k = c := by
  simp [Ctrl.afterFrame, h]

theorem Ctrl.afterFrame_of_long {k : CmdKind} (h : isLongOp k = true) (c : Ctrl) :
    c.afterFrame k = { c with longOp := true } := by
  simp [Ctrl.afterFrame, h]

/-! ### Coordinates -/

/-- A field whose value fits in `COORD_W` bits is the coordinate itself. -/
theorem coordOf_fits {p : Params} {field : Coord} (h : field.toNat < 2 ^ p.coordW) : coordOf p field = field.toNat := by
  simp [coordOf, h]

/-- At the default width, and at any wider one, every field is the coordinate itself. -/
theorem coordOf_wide {p : Params} (h : 32 ≤ p.coordW) (field : Coord) : coordOf p field = field.toNat :=
  coordOf_fits (Nat.lt_of_lt_of_le field.isLt (Nat.pow_le_pow_right (by decide) h))

/-- Every coordinate is `COORD_W` bits wide. -/
theorem coordOf_lt (p : Params) (field : Coord) : coordOf p field < 2 ^ p.coordW := by
  unfold coordOf
  split
  · assumption
  · exact Nat.mod_lt _ (Nat.two_pow_pos _)

/-! ### Draws depend on the plans alone -/

theorem State.sendResult_congr {s t : State} (h : t.sendPlan = s.sendPlan) (n : Nat) :
    t.sendResult n = s.sendResult n := by
  simp [State.sendResult, h]

theorem State.busyLevel_congr {s t : State} (h : t.busyPlan = s.busyPlan) (n : Nat) :
    t.busyLevel n = s.busyLevel n := by
  simp [State.busyLevel, h]

/-! ### One send -/

theorem State.send_ok {s : State} (sent : Event) (failed : TransportError → Event)
    (h : s.sendResult s.sendCount = none) :
    s.send sent failed = .go { s with sendCount := s.sendCount + 1, ctrl := s.ctrl.onFrame,
                                      trace := s.trace ++ [sent] } := by
  simp [State.send, h, State.record]

theorem State.send_err {s : State} (sent : Event) (failed : TransportError → Event) {e : TransportError}
    (h : s.sendResult s.sendCount = some e) :
    s.send sent failed = .ended (State.transportError e
      { s with sendCount := s.sendCount + 1, ctrl := s.ctrl.onFrame, trace := s.trace ++ [failed e] }) := by
  simp [State.send, h, State.record]

/-! ### One frame -/

/-- Everything `frame` can do: the frame is sent whole, or its CMD fails, or its DATA fails. -/
theorem State.sendFrame_cases (c : WireCmd) (s : State) :
    ((s.sendResult s.sendCount = none ∧ (c.data s.params ≠ [] → s.sendResult (s.sendCount + 1) = none)) ∧
      s.sendFrame c = .go { s with
        trace := s.trace ++ frameEvents (c.op s.params) (c.data s.params)
        sendCount := s.sendCount + (frameEvents (c.op s.params) (c.data s.params)).length
        ctrl := s.ctrl.onFrame.afterFrame c.kind }) ∨
    (∃ e, s.sendResult s.sendCount = some e ∧
      s.sendFrame c = .ended (State.transportError e { s with
        trace := s.trace ++ [.cmdFailed (c.op s.params) e]
        sendCount := s.sendCount + 1
        ctrl := s.ctrl.onFrame })) ∨
    (∃ e, s.sendResult s.sendCount = none ∧ c.data s.params ≠ [] ∧ s.sendResult (s.sendCount + 1) = some e ∧
      s.sendFrame c = .ended (State.transportError e { s with
        trace := s.trace ++ [.cmd (c.op s.params), .dataFailed (c.data s.params) e]
        sendCount := s.sendCount + 2
        ctrl := s.ctrl.onFrame })) := by
  cases h0 : s.sendResult s.sendCount with
  | some e =>
    refine .inr (.inl ⟨e, rfl, ?_⟩)
    simp [State.sendFrame, State.emitCmd, State.send_err _ _ h0, Flow.andThen]
  | none =>
    by_cases hd : c.data s.params = []
    · refine .inl ⟨⟨rfl, fun h => absurd hd h⟩, ?_⟩
      simp [State.sendFrame, State.emitCmd, State.send_ok _ _ h0, Flow.andThen, State.emitData, hd, frameEvents]
    · have hd' : (c.data s.params).isEmpty = false := by simp [hd]
      cases h1 : s.sendResult (s.sendCount + 1) with
      | none =>
        refine .inl ⟨⟨rfl, fun _ => rfl⟩, ?_⟩
        simp only [State.sendFrame, State.emitCmd, State.send_ok _ _ h0, Flow.andThen, State.emitData, hd',
          Bool.false_eq_true, if_false]
        rw [State.send_ok (s := { s with
          sendCount := s.sendCount + 1, ctrl := s.ctrl.onFrame, trace := s.trace ++ [.cmd (c.op s.params)] }) _ _ h1]
        simp [frameEvents, hd']
      | some e =>
        refine .inr (.inr ⟨e, rfl, hd, rfl, ?_⟩)
        simp only [State.sendFrame, State.emitCmd, State.send_ok _ _ h0, Flow.andThen, State.emitData, hd',
          Bool.false_eq_true, if_false]
        rw [State.send_err (s := { s with
          sendCount := s.sendCount + 1, ctrl := s.ctrl.onFrame, trace := s.trace ++ [.cmd (c.op s.params)] }) _ _ h1]
        simp

/-! ### encode_and_send -/

theorem State.encodeAndSend_fault {s : State} {c : WireCmd} {f : FaultRecord} (h : commandFault s.params c = some f) :
    s.encodeAndSend c = .ended (s.raiseFault f) := by
  simp [State.encodeAndSend, h]

theorem State.encodeAndSend_send {s : State} {c : WireCmd} (h : commandFault s.params c = none) :
    s.encodeAndSend c = s.sendFrame c := by
  simp [State.encodeAndSend, h]

/-- A command that passes its checks, all its sends good. -/
theorem State.encodeAndSend_ok {s : State} {c : WireCmd} (h : commandFault s.params c = none)
    (h0 : s.sendResult s.sendCount = none) (h1 : c.data s.params ≠ [] → s.sendResult (s.sendCount + 1) = none) :
    s.encodeAndSend c = .go { s with
      trace := s.trace ++ frameEvents (c.op s.params) (c.data s.params)
      sendCount := s.sendCount + (frameEvents (c.op s.params) (c.data s.params)).length
      ctrl := s.ctrl.onFrame.afterFrame c.kind } := by
  rw [State.encodeAndSend_send h]
  rcases State.sendFrame_cases c s with ⟨_, h⟩ | ⟨e, he, _⟩ | ⟨e, _, hd, he, _⟩
  · exact h
  · rw [h0] at he; cases he
  · rw [h1 hd] at he; cases he

/-! ### The busy-wait -/

theorem State.emitWaitBusy_clear {s : State} (h : s.busyLevel s.pollCount = false) :
    s.emitWaitBusy = .go { s with busyIn := false, pollCount := s.pollCount + 1, trace := s.trace ++ [.waitBusy],
                                  ctrl := s.ctrl.afterWait } := by
  simp [State.emitWaitBusy, h]

theorem State.emitWaitBusy_busy {s : State} (h : s.busyLevel s.pollCount = true) :
    s.emitWaitBusy = .held { s with busyIn := true, pollCount := s.pollCount + 1 } := by
  simp [State.emitWaitBusy, h]

end Sys2Proof.Machine
end

