-- ==== Sys2Proof/Laws/PerInstr.lean ====
section
/-! SUPPORT. The family `EncodedLength`: the number of bytes of every instruction's encoding, one lemma per
constructor. A wire command is its opcode and the data bytes of its format (spec/30_encoding.md R102, R104); a host
request is its code and its operands (R110, R113). -/

namespace Sys2Proof.Laws.EncodedLength

/-- The number of data bytes of a fixed-argument command (R102, R104). -/
def commandDataLength (c : Command) : Nat := (c.kind.format.count).getD 0

/-- The number of bytes R102 and R110 give an instruction. -/
def expected : Instr → Nat
  | .driverOutputControl _ _ => 1 + 3
  | .gateDrivingVoltage _ => 1 + 1
  | .sourceDrivingVoltage _ _ _ => 1 + 3
  | .boosterEnable _ _ _ _ => 1 + 4
  | .gateScanStartPosition _ => 1 + 2
  | .deepSleepMode _ => 1 + 1
  | .dataEntryMode _ _ => 1 + 1
  | .softReset => 1 + 0
  | .updateDisplay => 1 + 0
  | .updateDisplayOption2 _ => 1 + 1
  | .writeBlackData buf => 1 + buf.length
  | .writeRedData buf => 1 + buf.length
  | .writeVcom _ => 1 + 1
  | .writeLut buf => 1 + buf.length
  | .dummyLinePeriod _ => 1 + 1
  | .gateLineWidth _ => 1 + 1
  | .borderWaveform _ => 1 + 1
  | .startEndXPosition _ _ => 1 + 2
  | .startEndYPosition _ _ => 1 + 4
  | .xAddress _ => 1 + 1
  | .yAddress _ => 1 + 2
  | .analogBlockControl _ => 1 + 1
  | .digitalBlockControl _ => 1 + 1
  | .reset => 1
  | .update black red => 1 + (2 + black.length) + (2 + red.length)
  | .deepSleep => 1
  | .status => 1
  | .exec c => 2 + commandDataLength c
  | .execBuf c => 1 + 1 + (2 + c.buf.length)
  | .wait => 1
  | .clear _ => 2
  | .setPixel _ _ _ => 1 + 9
  | .drawPixels pixels => 1 + 2 + 9 * pixels.length
  | .gfxUpdate => 1
  | .planeWrite _ _ _ => 1 + 1 + 2 + 1
  | .planeRead _ _ => 1 + 1 + 2

/-- What the family says of an instruction: its encoding has the expected length, under any parameters. -/
def Statement (i : Instr) : Prop := ∀ p : Params, (encode p i).length = expected i

theorem commandData_length (p : Params) (c : Command) : (c.data p).length = commandDataLength c := by
  cases c <;> rfl

theorem pixelBytes_length (pxs : List Pixel) : (pixelBytes pxs).length = 9 * pxs.length := by
  induction pxs with
  | nil => rfl
  | cons px pxs ih => simp [pixelBytes, Pixel.bytes, bytes32, ih]; omega

theorem bufferBytes_length (l : List Byte) : (bufferBytes l).length = 2 + l.length := by
  simp [bufferBytes, bytes16]; omega

end Sys2Proof.Laws.EncodedLength

open Sys2Proof

theorem Sys2Proof.Laws.EncodedLength.driverOutputControl (gateLines : Half) (scan : Byte) :
    Sys2Proof.Laws.EncodedLength.Statement (.driverOutputControl gateLines scan) := fun _ => rfl

theorem Sys2Proof.Laws.EncodedLength.gateDrivingVoltage (v : Byte) :
    Sys2Proof.Laws.EncodedLength.Statement (.gateDrivingVoltage v) := fun _ => rfl

theorem Sys2Proof.Laws.EncodedLength.sourceDrivingVoltage (vsh1 vsh2 vsl : Byte) :
    Sys2Proof.Laws.EncodedLength.Statement (.sourceDrivingVoltage vsh1 vsh2 vsl) := fun _ => rfl

theorem Sys2Proof.Laws.EncodedLength.boosterEnable (p1 p2 p3 dur : Byte) :
    Sys2Proof.Laws.EncodedLength.Statement (.boosterEnable p1 p2 p3 dur) := fun _ => rfl

theorem Sys2Proof.Laws.EncodedLength.gateScanStartPosition (pos : Half) :
    Sys2Proof.Laws.EncodedLength.Statement (.gateScanStartPosition pos) := fun _ => rfl

theorem Sys2Proof.Laws.EncodedLength.deepSleepMode (mode : SleepMode) :
    Sys2Proof.Laws.EncodedLength.Statement (.deepSleepMode mode) := fun _ => rfl

theorem Sys2Proof.Laws.EncodedLength.dataEntryMode (mode : EntryMode) (axis : Axis) :
    Sys2Proof.Laws.EncodedLength.Statement (.dataEntryMode mode axis) := fun _ => rfl

theorem Sys2Proof.Laws.EncodedLength.softReset :
    Sys2Proof.Laws.EncodedLength.Statement .softReset := fun _ => rfl

theorem Sys2Proof.Laws.EncodedLength.updateDisplay :
    Sys2Proof.Laws.EncodedLength.Statement .updateDisplay := fun _ => rfl

theorem Sys2Proof.Laws.EncodedLength.updateDisplayOption2 (v : Byte) :
    Sys2Proof.Laws.EncodedLength.Statement (.updateDisplayOption2 v) := fun _ => rfl

theorem Sys2Proof.Laws.EncodedLength.writeBlackData (buf : List Byte) :
    Sys2Proof.Laws.EncodedLength.Statement (.writeBlackData buf) := fun _ => Nat.add_comm _ _

theorem Sys2Proof.Laws.EncodedLength.writeRedData (buf : List Byte) :
    Sys2Proof.Laws.EncodedLength.Statement (.writeRedData buf) := fun _ => Nat.add_comm _ _

theorem Sys2Proof.Laws.EncodedLength.writeVcom (v : Byte) :
    Sys2Proof.Laws.EncodedLength.Statement (.writeVcom v) := fun _ => rfl

theorem Sys2Proof.Laws.EncodedLength.writeLut (buf : List Byte) :
    Sys2Proof.Laws.EncodedLength.Statement (.writeLut buf) := fun _ => Nat.add_comm _ _

theorem Sys2Proof.Laws.EncodedLength.dummyLinePeriod (v : Byte) :
    Sys2Proof.Laws.EncodedLength.Statement (.dummyLinePeriod v) := fun _ => rfl

theorem Sys2Proof.Laws.EncodedLength.gateLineWidth (v : Byte) :
    Sys2Proof.Laws.EncodedLength.Statement (.gateLineWidth v) := fun _ => rfl

theorem Sys2Proof.Laws.EncodedLength.borderWaveform (v : Byte) :
    Sys2Proof.Laws.EncodedLength.Statement (.borderWaveform v) := fun _ => rfl

theorem Sys2Proof.Laws.EncodedLength.startEndXPosition (first last : Byte) :
    Sys2Proof.Laws.EncodedLength.Statement (.startEndXPosition first last) := fun _ => rfl

theorem Sys2Proof.Laws.EncodedLength.startEndYPosition (first last : Half) :
    Sys2Proof.Laws.EncodedLength.Statement (.startEndYPosition first last) := fun _ => rfl

theorem Sys2Proof.Laws.EncodedLength.xAddress (a : Byte) :
    Sys2Proof.Laws.EncodedLength.Statement (.xAddress a) := fun _ => rfl

theorem Sys2Proof.Laws.EncodedLength.yAddress (a : Half) :
    Sys2Proof.Laws.EncodedLength.Statement (.yAddress a) := fun _ => rfl

theorem Sys2Proof.Laws.EncodedLength.analogBlockControl (v : Byte) :
    Sys2Proof.Laws.EncodedLength.Statement (.analogBlockControl v) := fun _ => rfl

theorem Sys2Proof.Laws.EncodedLength.digitalBlockControl (v : Byte) :
    Sys2Proof.Laws.EncodedLength.Statement (.digitalBlockControl v) := fun _ => rfl

theorem Sys2Proof.Laws.EncodedLength.reset :
    Sys2Proof.Laws.EncodedLength.Statement .reset := fun _ => rfl

theorem Sys2Proof.Laws.EncodedLength.update (black red : List Byte) :
    Sys2Proof.Laws.EncodedLength.Statement (.update black red) := by
  intro p; simp [encode, Sys2Proof.Laws.EncodedLength.expected, Sys2Proof.Laws.EncodedLength.bufferBytes_length]; omega

theorem Sys2Proof.Laws.EncodedLength.deepSleep :
    Sys2Proof.Laws.EncodedLength.Statement .deepSleep := fun _ => rfl

theorem Sys2Proof.Laws.EncodedLength.status :
    Sys2Proof.Laws.EncodedLength.Statement .status := fun _ => rfl

theorem Sys2Proof.Laws.EncodedLength.exec (c : Command) :
    Sys2Proof.Laws.EncodedLength.Statement (.exec c) := by
  intro p
  simp [encode, WireCmd.frame, WireCmd.data, Sys2Proof.Laws.EncodedLength.expected,
    Sys2Proof.Laws.EncodedLength.commandData_length]
  omega

theorem Sys2Proof.Laws.EncodedLength.execBuf (c : BufCommand) :
    Sys2Proof.Laws.EncodedLength.Statement (.execBuf c) := by
  intro p; simp [encode, Sys2Proof.Laws.EncodedLength.expected, Sys2Proof.Laws.EncodedLength.bufferBytes_length]; omega

theorem Sys2Proof.Laws.EncodedLength.wait :
    Sys2Proof.Laws.EncodedLength.Statement .wait := fun _ => rfl

theorem Sys2Proof.Laws.EncodedLength.clear (color : Color) :
    Sys2Proof.Laws.EncodedLength.Statement (.clear color) := fun _ => rfl

theorem Sys2Proof.Laws.EncodedLength.setPixel (x y : Coord) (color : Color) :
    Sys2Proof.Laws.EncodedLength.Statement (.setPixel x y color) := fun _ => rfl

theorem Sys2Proof.Laws.EncodedLength.drawPixels (pixels : List Pixel) :
    Sys2Proof.Laws.EncodedLength.Statement (.drawPixels pixels) := by
  intro p; simp [encode, bytes16, Sys2Proof.Laws.EncodedLength.expected, Sys2Proof.Laws.EncodedLength.pixelBytes_length]; omega

theorem Sys2Proof.Laws.EncodedLength.gfxUpdate :
    Sys2Proof.Laws.EncodedLength.Statement .gfxUpdate := fun _ => rfl

theorem Sys2Proof.Laws.EncodedLength.planeWrite (plane : Plane) (index : Half) (value : Byte) :
    Sys2Proof.Laws.EncodedLength.Statement (.planeWrite plane index value) := fun _ => rfl

theorem Sys2Proof.Laws.EncodedLength.planeRead (plane : Plane) (index : Half) :
    Sys2Proof.Laws.EncodedLength.Statement (.planeRead plane index) := fun _ => rfl
end

