-- ==== Sys2Proof/Laws/Sequence.lean ====
section
/-! SUPPORT. The step lists and how they run: one lemma per way a step ends, the run of a block of frames, and the
relation of a run to single steps. -/

namespace Sys2Proof.Machine

/-! ### One step of a list -/

theorem State.runSteps_go {m : Micro} {ms : List Micro} {s s' : State} (h : s.doMicro m = .go s') :
    State.runSteps (m :: ms) s = State.runSteps ms s'.nextPos := by
  simp [State.runSteps, h]

theorem State.runSteps_ended {m : Micro} {ms : List Micro} {s s' : State} (h : s.doMicro m = .ended s') :
    State.runSteps (m :: ms) s = s' := by
  simp [State.runSteps, h]

theorem State.runSteps_held {m : Micro} {ms : List Micro} {s s' : State} (h : s.doMicro m = .held s') :
    State.runSteps (m :: ms) s = s' := by
  simp [State.runSteps, h]

/-- The position `n` steps further on. -/
def Pos.advance (p : Pos) (n : Nat) : Pos :=
  match p with
  | .idle => .idle
  | .running i m k => .running i m (k + n)

@[simp] theorem Pos.advance_zero (p : Pos) : p.advance 0 = p := by cases p <;> rfl

@[simp] theorem Pos.advance_misused (p : Pos) (n : Nat) : (p.advance n).misused = p.misused := by cases p <;> rfl

theorem Pos.advance_advance (p : Pos) (m n : Nat) : (p.advance m).advance n = p.advance (m + n) := by
  cases p <;> simp [Pos.advance, Nat.add_assoc]

theorem State.nextPos_eq (s : State) : s.nextPos = { s with pos := s.pos.advance 1 } := by
  unfold State.nextPos Pos.advance; cases s.pos <;> rfl

/-! ### The head of a list, run -/

/-- A frame step whose command passes its checks and whose sends are good. -/
theorem State.runSteps_send {c : WireCmd} {ms : List Micro} {s : State} (h : commandFault s.params c = none)
    (h0 : s.sendResult s.sendCount = none) (h1 : c.data s.params ≠ [] → s.sendResult (s.sendCount + 1) = none) :
    State.runSteps (.send c :: ms) s = State.runSteps ms { s with
      trace := s.trace ++ frameEvents (c.op s.params) (c.data s.params)
      sendCount := s.sendCount + (frameEvents (c.op s.params) (c.data s.params)).length
      ctrl := s.ctrl.onFrame.afterFrame c.kind
      pos := s.pos.advance 1 } := by
  rw [State.runSteps_go (m := .send c) (State.encodeAndSend_ok h h0 h1), State.nextPos_eq]

/-- A busy-wait that sees busy clear. -/
theorem State.runSteps_waitBusy_clear {ms : List Micro} {s : State} (h : s.busyLevel s.pollCount = false) :
    State.runSteps (.waitBusy :: ms) s = State.runSteps ms { s with
      busyIn := false
      pollCount := s.pollCount + 1
      trace := s.trace ++ [.waitBusy]
      ctrl := s.ctrl.afterWait
      pos := s.pos.advance 1 } := by
  rw [State.runSteps_go (m := .waitBusy) (State.emitWaitBusy_clear h), State.nextPos_eq]

/-- A busy-wait that sees busy set: the run ends there, held. -/
theorem State.runSteps_waitBusy_busy {ms : List Micro} {s : State} (h : s.busyLevel s.pollCount = true) :
    State.runSteps (.waitBusy :: ms) s = { s with busyIn := true, pollCount := s.pollCount + 1 } :=
  State.runSteps_held (m := .waitBusy) (State.emitWaitBusy_busy h)

theorem State.runSteps_resetPulse (ms : List Micro) (s : State) :
    State.runSteps (.resetPulse :: ms) s = State.runSteps ms { s with
      trace := s.trace ++ [.resetPulse], pos := s.pos.advance 1 } := by
  rw [State.runSteps_go (m := .resetPulse) rfl, State.nextPos_eq]; rfl

theorem State.runSteps_delay (n : Nat) (ms : List Micro) (s : State) :
    State.runSteps (.delay n :: ms) s = State.runSteps ms { s with
      trace := s.trace ++ [.delay n], pos := s.pos.advance 1 } := by
  rw [State.runSteps_go (m := .delay n) rfl, State.nextPos_eq]; rfl

theorem State.runSteps_setSeq (q : SeqState) (ms : List Micro) (s : State) :
    State.runSteps (.setSeq q :: ms) s = State.runSteps ms { s with
      seq := if s.pos.misused then s.seq else q, pos := s.pos.advance 1 } := by
  rw [State.runSteps_go (m := .setSeq q) rfl, State.nextPos_eq]; rfl

/-! ### A block of frames -/

/-- The events of a step that encodes a command, sent whole; none for a skipped step. -/
def Micro.frame (p : Params) (m : Micro) : List Event :=
  match m.command with
  | some c => frameEvents (c.op p) (c.data p)
  | none => []

/-- A step that encodes a command that is no long operation and passes its checks, or a skipped step. -/
def Micro.plainSend (p : Params) (m : Micro) : Prop :=
  (∃ c, m = .send c ∧ commandFault p c = none ∧ isLongOp c.kind = false) ∨
  (∃ c, m = .sendIf (some c) ∧ commandFault p c = none ∧ isLongOp c.kind = false) ∨
  m = .sendIf none

/-- One plain frame step whose sends are good. -/
theorem State.doMicro_plainSend {m : Micro} {s : State} (hm : m.plainSend s.params)
    (hs : s.sendsOk (m.frame s.params).length) :
    s.doMicro m = .go { s with
      trace := s.trace ++ m.frame s.params
      sendCount := s.sendCount + (m.frame s.params).length
      ctrl := if m.frame s.params = [] then s.ctrl else s.ctrl.onFrame } := by
  have key : ∀ c, commandFault s.params c = none → isLongOp c.kind = false →
      s.sendsOk (frameEvents (c.op s.params) (c.data s.params)).length →
      s.encodeAndSend c = .go { s with
        trace := s.trace ++ frameEvents (c.op s.params) (c.data s.params)
        sendCount := s.sendCount + (frameEvents (c.op s.params) (c.data s.params)).length
        ctrl := s.ctrl.onFrame } := by
    intro c hc hl h
    rw [State.encodeAndSend_ok hc (h 0 (by simp [frameEvents])) (fun hd => h 1 (by simp [frameEvents, hd])),
      Ctrl.afterFrame_of_not_long hl]
  rcases hm with ⟨c, rfl, hc, hl⟩ | ⟨c, rfl, hc, hl⟩ | rfl
  · rw [State.doMicro, key c hc hl hs]; simp [Micro.frame, Micro.command, frameEvents]
  · rw [State.doMicro, key c hc hl hs]; simp [Micro.frame, Micro.command, frameEvents]
  · simp [State.doMicro, Micro.frame, Micro.command]

/-- A block of plain frame steps whose sends are all good, run while no long operation is pending: the frames are
appended, the sends counted, the position moved on, and nothing else changes. -/
theorem State.runSteps_plainSends (ms rest : List Micro) (s : State) (hl : s.ctrl.longOp = false)
    (hm : ∀ m ∈ ms, m.plainSend s.params) (hs : s.sendsOk (ms.flatMap (Micro.frame s.params)).length) :
    State.runSteps (ms ++ rest) s = State.runSteps rest { s with
      trace := s.trace ++ ms.flatMap (Micro.frame s.params)
      sendCount := s.sendCount + (ms.flatMap (Micro.frame s.params)).length
      pos := s.pos.advance ms.length } := by
  induction ms generalizing s with
  | nil => simp
  | cons m ms ih =>
    rw [List.flatMap_cons, List.length_append] at hs
    have h1 := State.doMicro_plainSend (hm m (List.mem_cons_self ..)) (fun k hk => hs k (by omega))
    rw [List.cons_append, State.runSteps_go h1, State.nextPos_eq, ih]
    · simp only [Ctrl.onFrame_of_not_longOp hl, ite_self, Pos.advance_advance, List.length_cons, List.flatMap_cons,
        List.length_append, List.append_assoc, Nat.add_assoc, Nat.add_comm 1]
    · simp [hl]
    · exact fun m' h' => hm m' (List.mem_cons_of_mem _ h')
    · intro k hk
      have := hs ((m.frame s.params).length + k) (by simpa using hk)
      rw [← Nat.add_assoc] at this
      exact this

/-! ### Running and single steps -/

theorem stepN_succ {s t : State} (h : step s = .next t) (n : Nat) : stepN (n + 1) s = stepN n t := by
  simp [stepN, h]

theorem stepN_add {a b : Nat} {s t u : State} (h : stepN a s = .next t) (h' : stepN b t = .next u) :
    stepN (a + b) s = .next u := by
  induction a generalizing s with
  | zero =>
    cases h
    rwa [Nat.zero_add]
  | succ a ih =>
    cases hs : step s with
    | next v =>
      rw [stepN_succ hs] at h
      rw [Nat.add_right_comm, stepN_succ hs]
      exact ih h
    | fault f => simp [stepN, hs] at h
    | refused r => simp [stepN, hs] at h

theorem step_running {s : State} {req : Instr} {mis : Bool} {k : Nat} (hf : s.fault = none)
    (hp : s.pos = .running req mis k) : step s = .next s.tick := by
  unfold step
  rw [hf]
  split <;> simp_all

/-- A position inside a step list: the single step is that step, settled. -/
theorem State.tick_running {s : State} {req : Instr} {mis : Bool} {k : Nat} {m : Micro}
    (hp : s.pos = .running req mis k) (hm : (stepsOf s req)[k]? = some m) : s.tick = (s.doMicro m).settle := by
  simp [State.tick, hp, hm]

end Sys2Proof.Machine
end

