-- ==== Sys2Proof/Laws/Steps.lean ====
section
/-! SUPPORT. Which steps a request's list may hold: one lemma says of every step of every request what it is for and
that its command passes its checks, so that no later proof takes the step lists apart. -/

namespace Sys2Proof.Machine

/-- Neither RESET nor an update: a request that never writes a transient sequencer state. -/
def plainRequest (i : Instr) : Prop := i ≠ .reset ∧ ¬ isUpdate i

/-- The requests each kind of step belongs to. -/
def Micro.belongs (cfg : Cfg) (req : Instr) : Micro → Prop
  | .resetPulse => req = .reset
  | .send _ | .sendIf _ | .waitBusy | .delay _ => req.isRequest = true
  | .setSeq q => (req = .reset ∧ q = .initialized) ∨ (isUpdate req ∧ q = .updating)
  | .fill _ _ => ∃ c, req = .clear c
  | .pixel _ => (∃ x y c, req = .setPixel x y c) ∨ ∃ pxs, req = .drawPixels pxs
  | .writeByte p i v => i < cfg.planeLen ∧ ∃ idx : Half, i = idx.toNat ∧ req = .planeWrite p idx v
  | .finish => plainRequest req ∧ req ≠ .deepSleep ∧ req.isRequest = true
  | .finishExec => (∃ c, req = .exec c) ∨ ∃ c, req = .execBuf c
  | .finishReset => req = .reset
  | .finishUpdate _ _ => isUpdate req
  | .finishSleep => req = .deepSleep
  | .finishStatus => req = .status
  | .finishRead p i => ∃ idx : Half, i = idx.toNat ∧ req = .planeRead p idx

theorem updateSteps_belong {cfg : Cfg} {req : Instr} (hu : isUpdate req) (p : Params) (b r : List Byte) :
    ∀ m ∈ updateSteps p b r, m.belongs cfg req := by
  have hq : req.isRequest = true := by
    rcases hu with ⟨_, _, rfl⟩ | rfl <;> rfl
  intro m hm
  simp only [updateSteps, List.mem_cons, List.not_mem_nil, or_false] at hm
  rcases hm with rfl | rfl | rfl | rfl | rfl | rfl | rfl | rfl | rfl | rfl | rfl | rfl <;>
    first
    | exact hq
    | exact .inr ⟨hu, rfl⟩
    | exact hu

theorem resetSteps_belong (cfg' : Cfg) (p : Params) (cfg : Cfg) : ∀ m ∈ resetSteps p cfg, m.belongs cfg' .reset := by
  intro m hm
  simp only [resetSteps, initPart1, initPart2, initPart3, List.cons_append, List.nil_append, List.mem_cons,
    List.not_mem_nil, or_false] at hm
  rcases hm with rfl | rfl | rfl | rfl | rfl | rfl | rfl | rfl | rfl | rfl | rfl | rfl | rfl | rfl | rfl | rfl |
    rfl | rfl <;>
    first
    | rfl
    | exact .inl ⟨rfl, rfl⟩

theorem planeIndexFault_none {cfg : Cfg} {idx : Half} (h : planeIndexFault cfg idx = none) :
    idx.toNat < cfg.planeLen := by
  unfold planeIndexFault at h
  split at h
  · assumption
  · cases h

theorem ownFault_none {s : State} {i : Instr} (h : requestFault s i = none) : ownFault s i = none := by
  unfold requestFault at h
  split at h
  · cases h
  · assumption

/-- Every step of a checked request belongs to it. -/
theorem belongs_of_mem {s : State} {req : Instr} (h : requestFault s req = none) :
    ∀ m ∈ stepsOf s req, m.belongs s.cfg req := by
  intro m hm
  have ho := ownFault_none h
  cases req <;> simp only [stepsOf, List.not_mem_nil] at hm
  case reset => exact resetSteps_belong _ _ _ m hm
  case update => exact updateSteps_belong (.inl ⟨_, _, rfl⟩) _ _ _ m hm
  case gfxUpdate => exact updateSteps_belong (.inr rfl) _ _ _ m hm
  case drawPixels =>
    simp only [drawPixelsSteps, List.mem_append, List.mem_map, List.mem_cons, List.not_mem_nil, or_false] at hm
    rcases hm with ⟨_, _, rfl⟩ | rfl
    · exact .inr ⟨_, rfl⟩
    · simp [Micro.belongs, plainRequest, isUpdate, Instr.isRequest]
  case planeWrite =>
    simp only [planeWriteSteps, List.mem_cons, List.not_mem_nil, or_false] at hm
    rcases hm with rfl | rfl
    · exact ⟨planeIndexFault_none ho, _, rfl, rfl⟩
    · simp [Micro.belongs, plainRequest, isUpdate, Instr.isRequest]
  all_goals
    simp only [deepSleepSteps, statusSteps, execSteps, execBufSteps, waitSteps, clearSteps, setPixelSteps,
      planeReadSteps, List.mem_cons, List.not_mem_nil, or_false] at hm
    (try rcases hm with rfl | rfl) <;>
      simp [Micro.belongs, plainRequest, isUpdate, Instr.isRequest]

/-- Only EXEC encodes a GK extra: the fixed step lists never do. -/
theorem extra_only_in_exec {s : State} {req : Instr} {m : Micro} (hm : m ∈ stepsOf s req) {c : WireCmd}
    (hc : m.command = some c) (hu : isExtra c = true) : ∃ x, req = .exec x ∧ c = .fixed x := by
  have up : ∀ p b r, m ∈ updateSteps p b r → False := by
    intro p b r hm
    simp only [updateSteps, List.mem_cons, List.not_mem_nil, or_false] at hm
    rcases hm with rfl | rfl | rfl | rfl | rfl | rfl | rfl | rfl | rfl | rfl | rfl | rfl <;> cases hc <;> cases hu
  cases req <;> simp only [stepsOf, List.not_mem_nil] at hm
  case reset =>
    exfalso
    simp only [resetSteps, initPart1, initPart2, initPart3, List.cons_append, List.nil_append, List.mem_cons,
      List.not_mem_nil, or_false] at hm
    rcases hm with rfl | rfl | rfl | rfl | rfl | rfl | rfl | rfl | rfl | rfl | rfl | rfl | rfl | rfl | rfl | rfl |
      rfl | rfl <;> simp only [Micro.command, Option.map_eq_some_iff, reduceCtorEq, Option.some.injEq] at hc
    all_goals (obtain ⟨_, _, rfl⟩ := hc; cases hu)
  case update => exact (up _ _ _ hm).elim
  case gfxUpdate => exact (up _ _ _ hm).elim
  case exec x =>
    simp only [execSteps, List.mem_cons, List.not_mem_nil, or_false] at hm
    rcases hm with rfl | rfl
    · cases hc
      exact ⟨x, rfl, rfl⟩
    · cases hc
  case drawPixels =>
    simp only [drawPixelsSteps, List.mem_append, List.mem_map, List.mem_cons, List.not_mem_nil, or_false] at hm
    rcases hm with ⟨_, _, rfl⟩ | rfl <;> cases hc
  all_goals
    simp only [deepSleepSteps, statusSteps, execBufSteps, waitSteps, clearSteps, setPixelSteps, planeWriteSteps,
      planeReadSteps, List.mem_cons, List.not_mem_nil, or_false] at hm
    first
    | (subst hm; cases hc)
    | (rcases hm with rfl | rfl <;> cases hc <;> (first
        | cases hu
        | (rename_i b; cases b <;> cases hu)))

/-- Every command a checked request encodes passes the checks of `encode_and_send`: no fault arises after the first
step (spec/41_sequencer.md R190). -/
theorem commandFault_of_mem {s : State} {req : Instr} (h : requestFault s req = none) {m : Micro}
    (hm : m ∈ stepsOf s req) {c : WireCmd} (hc : m.command = some c) : commandFault s.params c = none := by
  have ho := ownFault_none h
  unfold requestFault at h
  rw [ho] at h
  have hr := List.findSome?_eq_none_iff.mp h m hm
  simp only [stepRangeFault, hc] at hr
  by_cases hu : isExtra c = true
  · obtain ⟨x, rfl, rfl⟩ := extra_only_in_exec hm hc hu
    have : unimplementedFault s.params (.fixed x) = none := ho
    simp [commandFault, this, hr]
  · simp [commandFault, unimplementedFault, hu, hr]

/-- A request's list ends with the step that responds, and only there. -/
theorem stepsOf_last {s : State} {req : Instr} (h : req.isRequest = true) :
    ∃ l f, stepsOf s req = l ++ [f] ∧ (∀ t : State, ∃ t', t.doMicro f = .ended t') := by
  cases req <;> simp only [Instr.isRequest, Bool.false_eq_true] at h
  case reset =>
    refine ⟨[.resetPulse, .send (.fixed .softReset), .waitBusy, .setSeq .initialized] ++ (initPart1 s.params s.cfg ++
      (initPart2 s.params s.cfg ++ initPart3 s.cfg)), .finishReset, ?_, fun t => ⟨_, rfl⟩⟩
    simp [stepsOf, resetSteps]
  case update b r => exact ⟨(updateSteps s.params _ _).dropLast, .finishUpdate _ _, rfl, fun t => ⟨_, rfl⟩⟩
  case gfxUpdate => exact ⟨(updateSteps s.params _ _).dropLast, .finishUpdate _ _, rfl, fun t => ⟨_, rfl⟩⟩
  case deepSleep => exact ⟨[_], .finishSleep, rfl, fun t => ⟨_, rfl⟩⟩
  case status => exact ⟨[], .finishStatus, rfl, fun t => ⟨_, rfl⟩⟩
  case exec c => exact ⟨[_], .finishExec, rfl, fun t => ⟨_, rfl⟩⟩
  case execBuf c => exact ⟨[_], .finishExec, rfl, fun t => ⟨_, rfl⟩⟩
  case wait => exact ⟨[_], .finish, rfl, fun t => ⟨_, rfl⟩⟩
  case clear c => exact ⟨[_], .finish, rfl, fun t => ⟨_, rfl⟩⟩
  case setPixel x y c => exact ⟨[_], .finish, rfl, fun t => ⟨_, rfl⟩⟩
  case drawPixels pxs => exact ⟨pxs.map Micro.pixel, .finish, rfl, fun t => ⟨_, rfl⟩⟩
  case planeWrite p i v => exact ⟨[_], .finish, rfl, fun t => ⟨_, rfl⟩⟩
  case planeRead p i => exact ⟨[], .finishRead _ _, rfl, fun t => ⟨_, rfl⟩⟩

/-- The step list and the checks depend on the parameters, the configuration and the planes alone. -/
theorem stepsOf_congr {s t : State} (h1 : t.params = s.params) (h2 : t.cfg = s.cfg) (h3 : t.black = s.black)
    (h4 : t.red = s.red) (i : Instr) : stepsOf t i = stepsOf s i ∧ requestFault t i = requestFault s i := by
  have hp : ∀ p, t.planeBytes p = s.planeBytes p := by
    intro p
    unfold State.planeBytes
    rw [h2]
    apply State.planeBytesFrom_congr
    cases p <;> simp [State.plane, h3, h4]
  have hs : stepsOf t i = stepsOf s i := by cases i <;> simp [stepsOf, h1, h2, hp]
  have ho : ownFault t i = ownFault s i := by cases i <;> simp [ownFault, h1, h2]
  exact ⟨hs, by simp [requestFault, hs, ho, h1]⟩

/-! ### What a step can do -/

/-- What the decoder of the block gives is a host request (spec/30_encoding.md R100). -/
theorem decode_isRequest {p : Params} {bytes : List Byte} {i : Instr} {rest : List Byte}
    (h : decode p bytes = .ok (i, rest)) : i.isRequest = true := by
  rcases bytes with _ | ⟨b, l⟩
  · cases h
  simp only [decode] at h
  split at h
  · cases h
  · rename_i k hk
    cases k <;> simp only [takeRequest] at h <;> (repeat' split at h) <;>
      simp only [Except.ok.injEq, Prod.mk.injEq, reduceCtorEq] at h <;> obtain ⟨rfl, -⟩ := h <;> rfl

theorem exec_request {i : Instr} (h : i.isRequest = true) (s : State) : exec i s = runRequest i s := by
  cases i <;> simp only [Instr.isRequest, Bool.false_eq_true] at h <;> rfl

theorem exec_wire (c : WireCmd) (s : State) : exec c.toInstr s = runWire c s := by
  rcases c with c | c <;> cases c <;> rfl

theorem runRequest_accepting {s : State} (h : s.accepting) (i : Instr) : runRequest i s = .next (s.perform i) := by
  obtain ⟨hf, hp⟩ := h
  simp [runRequest, hf, hp]

theorem runRequest_next {s t : State} {i : Instr} (h : runRequest i s = .next t) : s.accepting ∧ t = s.perform i := by
  unfold runRequest at h
  split at h
  · cases h
  · split at h
    · cases h
    · cases h
      exact ⟨⟨by assumption, by assumption⟩, rfl⟩

/-- Everything a step can do when it answers a next state. -/
theorem step_next_cases {s t : State} (h : step s = .next t) : s.fault = none ∧
    ((∃ req mis k, s.pos = .running req mis k ∧ t = s.tick) ∨
     (s.pos = .idle ∧ s.inbox = [] ∧ t = s) ∨
     (∃ bytes later e, s.pos = .idle ∧ s.inbox = bytes :: later ∧ decode s.params bytes = .error e ∧
       t = { s with inbox := later }.raiseFault { code := .illegalRequest, info := .requestBytes bytes }) ∨
     (∃ bytes later i rest, s.pos = .idle ∧ s.inbox = bytes :: later ∧ decode s.params bytes = .ok (i, rest) ∧
       i.isRequest = true ∧ t = { s with inbox := afterRequest rest later }.perform i)) := by
  unfold step at h
  split at h
  · cases h
  rename_i hf
  refine ⟨hf, ?_⟩
  split at h
  · rename_i req mis k hp
    cases h
    exact .inl ⟨req, mis, k, hp, rfl⟩
  · rename_i hp
    unfold State.fetch at h
    cases hi : s.inbox with
    | nil =>
      simp only [hi] at h
      cases h
      exact .inr (.inl ⟨hp, rfl, rfl⟩)
    | cons bytes later =>
      cases hd : decode s.params bytes with
      | error e =>
        simp only [hi, hd] at h
        cases h
        exact .inr (.inr (.inl ⟨bytes, later, e, hp, rfl, hd, rfl⟩))
      | ok v =>
        obtain ⟨i, rest⟩ := v
        simp only [hi, hd] at h
        have hq := decode_isRequest hd
        rw [exec_request hq] at h
        exact .inr (.inr (.inr ⟨bytes, later, i, rest, hp, rfl, hd, hq, (runRequest_next h).2⟩))

/-! ### Frames -/

/-- A pixel changes the planes alone. -/
theorem State.drawPixel_frame (px : Pixel) (s : State) :
    s.drawPixel px = { s with black := (s.drawPixel px).black, red := (s.drawPixel px).red } := by
  unfold State.drawPixel
  split
  · rfl
  · simp [State.applyAt, State.writeByte, State.setPlane]

/-- What no step of any request touches. -/
structure Untouched (s t : State) : Prop where
  params : t.params = s.params
  cfg : t.cfg = s.cfg
  inbox : t.inbox = s.inbox
  sendPlan : t.sendPlan = s.sendPlan
  busyPlan : t.busyPlan = s.busyPlan

theorem encodeAndSend_untouched (c : WireCmd) (s : State) :
    Untouched s (s.encodeAndSend c).state ∧ (s.encodeAndSend c).state.black = s.black ∧
      (s.encodeAndSend c).state.red = s.red ∧ (s.encodeAndSend c).state.misuse = s.misuse := by
  cases hc : commandFault s.params c with
  | some f =>
    rw [State.encodeAndSend_fault hc]
    exact ⟨⟨rfl, rfl, rfl, rfl, rfl⟩, rfl, rfl, rfl⟩
  | none =>
    rw [State.encodeAndSend_send hc]
    rcases State.sendFrame_cases c s with ⟨_, h⟩ | ⟨e, _, h⟩ | ⟨e, _, _, _, h⟩ <;> rw [h] <;>
      exact ⟨⟨rfl, rfl, rfl, rfl, rfl⟩, rfl, rfl, rfl⟩

theorem doMicro_untouched (m : Micro) (s : State) : Untouched s (s.doMicro m).state := by
  cases m with
  | send c => exact (encodeAndSend_untouched c s).1
  | sendIf c =>
    cases c with
    | none => exact ⟨rfl, rfl, rfl, rfl, rfl⟩
    | some c => exact (encodeAndSend_untouched c s).1
  | waitBusy =>
    show Untouched s s.emitWaitBusy.state
    cases hb : s.busyLevel s.pollCount
    · rw [State.emitWaitBusy_clear hb]
      exact ⟨rfl, rfl, rfl, rfl, rfl⟩
    · rw [State.emitWaitBusy_busy hb]
      exact ⟨rfl, rfl, rfl, rfl, rfl⟩
  | pixel px =>
    show Untouched s (s.drawPixel px)
    rw [State.drawPixel_frame]
    exact ⟨rfl, rfl, rfl, rfl, rfl⟩
  | writeByte p i v => cases p <;> exact ⟨rfl, rfl, rfl, rfl, rfl⟩
  | _ => exact ⟨rfl, rfl, rfl, rfl, rfl⟩

/-- A completed step of a checked request moves to the next position and leaves the step list as it was. -/
theorem doMicro_go_next {s s' : State} {req : Instr} {mis : Bool} {k : Nat} {m : Micro}
    (hn : requestFault s req = none) (hp : s.pos = .running req mis k) (hm : (stepsOf s req)[k]? = some m)
    (h : s.doMicro m = .go s') :
    s'.nextPos.pos = .running req mis (k + 1) ∧ stepsOf s'.nextPos req = stepsOf s req := by
  have hb := belongs_of_mem hn m (List.mem_of_getElem? hm)
  have hf := doMicro_untouched m s
  rw [h] at hf
  have plain : s'.black = s.black → s'.red = s.red → s'.pos = s.pos →
      s'.pos = s.pos ∧ stepsOf s' req = stepsOf s req :=
    fun h1 h2 h3 => ⟨h3, (stepsOf_congr hf.params hf.cfg h1 h2 req).1⟩
  have sends : ∀ c, s.encodeAndSend c = .go s' → s'.pos = s.pos ∧ stepsOf s' req = stepsOf s req := by
    intro c hc
    have hu := encodeAndSend_untouched c s
    rw [hc] at hu
    refine plain hu.2.1 hu.2.2.1 ?_
    cases hcf : commandFault s.params c with
    | some f =>
      rw [State.encodeAndSend_fault hcf] at hc
      cases hc
    | none =>
      rw [State.encodeAndSend_send hcf] at hc
      rcases State.sendFrame_cases c s with ⟨_, h⟩ | ⟨e, _, h⟩ | ⟨e, _, _, _, h⟩ <;> rw [h] at hc <;> cases hc
      rfl
  have key : s'.pos = s.pos ∧ stepsOf s' req = stepsOf s req := by
    cases m with
    | send c => exact sends c h
    | sendIf c =>
      cases c with
      | none =>
        cases h
        exact plain rfl rfl rfl
      | some c => exact sends c h
    | waitBusy =>
      have h : s.emitWaitBusy = .go s' := h
      cases hz : s.busyLevel s.pollCount
      · rw [State.emitWaitBusy_clear hz] at h
        cases h
        exact plain rfl rfl rfl
      · rw [State.emitWaitBusy_busy hz] at h
        cases h
    | pixel px =>
      cases h
      refine ⟨by rw [State.drawPixel_frame], ?_⟩
      rcases hb with ⟨x, y, c, rfl⟩ | ⟨pxs, rfl⟩ <;> rfl
    | writeByte p i v =>
      cases h
      obtain ⟨_, idx, _, rfl⟩ := hb
      cases p <;> exact ⟨rfl, rfl⟩
    | fill a b =>
      cases h
      obtain ⟨c, rfl⟩ := hb
      exact ⟨rfl, rfl⟩
    | resetPulse =>
      cases h
      exact plain rfl rfl rfl
    | delay n =>
      cases h
      exact plain rfl rfl rfl
    | setSeq q =>
      cases h
      exact plain rfl rfl rfl
    | finish => cases h
    | finishExec => cases h
    | finishReset => cases h
    | finishUpdate b r => cases h
    | finishSleep => cases h
    | finishStatus => cases h
    | finishRead p i => cases h
  refine ⟨by rw [State.nextPos_eq]; simp [key.1, hp, Pos.advance], ?_⟩
  rw [(stepsOf_congr (s := s') (t := s'.nextPos) rfl rfl rfl rfl req).1, key.2]

/-! ### Polls -/

/-- Only a busy-wait polls or holds: every other step that completes leaves the polls as they were, and one that does
not complete ends the request. -/
theorem doMicro_polls {m : Micro} (hm : m ≠ .waitBusy) (s : State) :
    (∃ u, s.doMicro m = .go u ∧ u.pollCount = s.pollCount ∧ u.busyPlan = s.busyPlan) ∨
      ∃ u, s.doMicro m = .ended u ∧ u.pos = .idle := by
  have sends : ∀ c, (∃ u, s.encodeAndSend c = .go u ∧ u.pollCount = s.pollCount ∧ u.busyPlan = s.busyPlan) ∨
      ∃ u, s.encodeAndSend c = .ended u ∧ u.pos = .idle := by
    intro c
    cases hc : commandFault s.params c with
    | some f => exact .inr ⟨_, State.encodeAndSend_fault hc, rfl⟩
    | none =>
      rw [State.encodeAndSend_send hc]
      rcases State.sendFrame_cases c s with ⟨_, h⟩ | ⟨e, _, h⟩ | ⟨e, _, _, _, h⟩
      · exact .inl ⟨_, h, rfl, rfl⟩
      · exact .inr ⟨_, h, rfl⟩
      · exact .inr ⟨_, h, rfl⟩
  cases m with
  | send c => exact sends c
  | sendIf c =>
    cases c with
    | none => exact .inl ⟨_, rfl, rfl, rfl⟩
    | some c => exact sends c
  | waitBusy => exact absurd rfl hm
  | pixel px =>
    refine .inl ⟨_, rfl, ?_, ?_⟩ <;> rw [State.drawPixel_frame]
  | writeByte p i v => cases p <;> exact .inl ⟨_, rfl, rfl, rfl⟩
  | resetPulse | delay _ | setSeq _ | fill _ _ => exact .inl ⟨_, rfl, rfl, rfl⟩
  | finish | finishExec | finishReset | finishUpdate _ _ | finishSleep | finishStatus | finishRead _ _ =>
    exact .inr ⟨_, rfl, rfl⟩

theorem waitBusy_count (s : State) (req : Instr) : (stepsOf s req).count .waitBusy ≤ 1 := by
  cases req <;>
    first
    | (simp [stepsOf, updateSteps, deepSleepSteps, statusSteps, execSteps, execBufSteps, waitSteps, clearSteps,
        setPixelSteps, planeWriteSteps, planeReadSteps]; done)
    | (simp [stepsOf, resetSteps, initPart1, initPart2, initPart3]; done)
    | (simp only [stepsOf, drawPixelsSteps, List.count_append]
       rw [List.count_eq_zero_of_not_mem (by simp)]
       simp)

/-- A request waits for the busy input at most once: after its busy-wait there is no other. -/
theorem waitBusy_once {s : State} {req : Instr} {k : Nat} (h : (stepsOf s req)[k]? = some .waitBusy) :
    .waitBusy ∉ (stepsOf s req).drop (k + 1) := by
  intro hm
  obtain ⟨hk, he⟩ := List.getElem?_eq_some_iff.mp h
  have hc := waitBusy_count s req
  rw [← List.take_append_drop k (stepsOf s req), List.count_append, List.drop_eq_getElem_cons hk, he,
    List.count_cons_self] at hc
  have := List.count_pos_iff.mpr hm
  omega

end Sys2Proof.Machine
end

