-- ==== Sys2Proof/Tests/Slice0.lean ====
section
/-! SUPPORT. Tests of the model on fixed values. Every expected result is the spec's: a row of
spec/95_test_vectors.md (named in the docstring or the theorem) or an encoding written out from spec/30_encoding.md.
Last come the witnesses: for every statement with hypotheses, a state and operands that meet them together. -/

namespace Sys2Proof.Tests

open Sys2Proof.Machine Sys2Proof.Claims

/-! ### The small state the tests run on -/

/-- The default configuration of spec/95_test_vectors.md with every send good, busy clear, and a settle delay of 7. -/
def bench : State :=
  { State.reset with
    params := { Params.standard with updateSettleMs := 7 }
    sendPlan := List.replicate 40 none
    busyPlan := [false, false, false] }

/-- The same block in another sequencer state. -/
def benchIn (q : SeqState) : State := { bench with seq := q }

/-- The same block with a byte string waiting. -/
def benchWith (bytes : List Byte) : State := { bench with inbox := [bytes] }

/-- The same block after CLEAR WHITE. -/
def whiteBench : State := bench.fillPlanes 0xFF 0x00

/-- The same block with the GK extras admitted. -/
def extraBench : State := { bench with params := { bench.params with admitGkExtra := true } }

/-- The same block with a table that need not be 70 bytes. -/
def laxBench : State := { bench with params := { bench.params with lutStrict := false } }

/-- A RESET in progress whose initialisation sends a border waveform. -/
def borderBench : State :=
  { bench with params := { bench.params with initBorder := some 0x05 }, pos := .running .reset false 12 }

/-- A request of UPDATE in progress at step `k`, with the events `sent` out. -/
def updating (k : Nat) (sent : List Event) : State :=
  { bench with seq := .updating, pos := .running (.update [1, 2, 3] [4, 5, 6]) false k, trace := sent }

/-- The next state an outcome answers, if it answers one. -/
def nextOf (o : Host.Outcome State Fault Refusal) : Option State :=
  match o with
  | .next t => some t
  | .fault _ => none
  | .refused _ => none

/-- The trace after one step on a byte string. -/
def traceAfter (bytes : List Byte) : Option (List Event) := (nextOf (step (benchWith bytes))).map State.trace

/-- The fault after one step on a byte string. -/
def faultAfter (bytes : List Byte) : Option (Option FaultRecord) := (nextOf (step (benchWith bytes))).map State.fault

/-- The trace after one instruction. -/
def traceOf (i : Instr) (s : State) : Option (List Event) := (nextOf (exec i s)).map State.trace

/-- The plane bytes after one instruction. -/
def planesOf (i : Instr) (s : State) : Option (List Byte × List Byte) :=
  (nextOf (exec i s)).map fun t => (t.planeBytes .black, t.planeBytes .red)

/-! ### Well-formedness: each check refuses an ill-formed term -/

theorem tooLong {α : Type} (n : Nat) (x : α) (h : 65536 ≤ n) : fitsLength (List.replicate n x) = false := by
  simp only [fitsLength, List.length_replicate, decide_eq_false_iff_not]
  omega

theorem test_wf_update_black : (Instr.update (List.replicate 65536 0) []).wellFormed = false := by
  rw [Instr.wellFormed, tooLong _ _ (Nat.le_refl _), Bool.false_and]

theorem test_wf_update_red : (Instr.update [] (List.replicate 65536 0)).wellFormed = false := by
  rw [Instr.wellFormed, tooLong _ _ (Nat.le_refl _), Bool.and_false]

theorem test_wf_execBuf : (Instr.execBuf (.writeRedData (List.replicate 65536 0))).wellFormed = false := by
  rw [Instr.wellFormed, BufCommand.buf, tooLong _ _ (Nat.le_refl _)]

theorem test_wf_drawPixels : (Instr.drawPixels (List.replicate 65536 ⟨0, 0, .red⟩)).wellFormed = false := by
  rw [Instr.wellFormed, tooLong _ _ (Nat.le_refl _)]

theorem test_wf_accepts : (Instr.update [0xFF] [0x00]).wellFormed = true := by decide

/-! ### Decoding: the word of every constructor, written out from R104, R105 and R110 -/

/-- The reading of a frame of R104. -/
def frame (op : Byte) (data : List Byte) : Option WireCmd := decodeFrame Params.standard op data

theorem test_decode_driverOutputControl :
    frame 0x01 [0x28, 0x01, 0x00] = some (.fixed (.driverOutputControl 296 0)) := by decide
theorem test_decode_gateDrivingVoltage : frame 0x03 [0x11] = some (.fixed (.gateDrivingVoltage 0x11)) := by decide
theorem test_decode_sourceDrivingVoltage :
    frame 0x04 [0x2D, 0xB2, 0x22] = some (.fixed (.sourceDrivingVoltage 0x2D 0xB2 0x22)) := by decide
theorem test_decode_boosterEnable :
    frame 0x0C [0xD7, 0xD6, 0x9D, 0x00] = some (.fixed (.boosterEnable 0xD7 0xD6 0x9D 0x00)) := by decide
theorem test_decode_gateScanStartPosition :
    frame 0x0F [0x27, 0x01] = some (.fixed (.gateScanStartPosition 295)) := by decide
theorem test_decode_deepSleepMode : frame 0x10 [0x03] = some (.fixed (.deepSleepMode .discardRam)) := by decide
theorem test_decode_dataEntryMode :
    frame 0x11 [0x05] = some (.fixed (.dataEntryMode .incrementXDecrementY .vertical)) := by decide
theorem test_decode_softReset : frame 0x12 [] = some (.fixed .softReset) := by decide
theorem test_decode_updateDisplay : frame 0x20 [] = some (.fixed .updateDisplay) := by decide
theorem test_decode_updateDisplayOption2 : frame 0x22 [0xC7] = some (.fixed (.updateDisplayOption2 0xC7)) := by decide
theorem test_decode_writeBlackData : frame 0x24 [0xE0, 0xA0] = some (.buffer (.writeBlackData [0xE0, 0xA0])) := by
  decide
theorem test_decode_writeRedData : frame 0x26 [0xFF] = some (.buffer (.writeRedData [0xFF])) := by decide
theorem test_decode_writeVcom : frame 0x2C [0x3C] = some (.fixed (.writeVcom 0x3C)) := by decide
theorem test_decode_writeLut : frame 0x32 [] = some (.buffer (.writeLut [])) := by decide
theorem test_decode_dummyLinePeriod : frame 0x3A [0x7F] = some (.fixed (.dummyLinePeriod 0x7F)) := by decide
theorem test_decode_gateLineWidth : frame 0x3B [0x04] = some (.fixed (.gateLineWidth 0x04)) := by decide
theorem test_decode_borderWaveform : frame 0x3C [0x01] = some (.fixed (.borderWaveform 0x01)) := by decide
theorem test_decode_startEndXPosition : frame 0x44 [0x05, 0x02] = some (.fixed (.startEndXPosition 5 2)) := by decide
theorem test_decode_startEndYPosition :
    frame 0x45 [0x01, 0x00, 0x28, 0x01] = some (.fixed (.startEndYPosition 1 296)) := by decide
theorem test_decode_xAddress : frame 0x4E [0x13] = some (.fixed (.xAddress 19)) := by decide
theorem test_decode_yAddress : frame 0x4F [0x28, 0x01] = some (.fixed (.yAddress 296)) := by decide
theorem test_decode_analogBlockControl : frame 0x74 [0x54] = some (.fixed (.analogBlockControl 0x54)) := by decide
theorem test_decode_digitalBlockControl : frame 0x7E [0x3B] = some (.fixed (.digitalBlockControl 0x3B)) := by decide

/-- The instruction of a whole byte string. -/
def request (bytes : List Byte) : Except DecodeError (Instr × List Byte) := decode Params.standard bytes

theorem test_decode_reset : request [0x01] = .ok (.reset, []) := by rfl
theorem test_decode_update :
    request [0x02, 0x01, 0x00, 0xAA, 0x02, 0x00, 0x01, 0x02] = .ok (.update [0xAA] [0x01, 0x02], []) := by rfl
theorem test_decode_deepSleep : request [0x03] = .ok (.deepSleep, []) := by rfl
theorem test_decode_status : request [0x04] = .ok (.status, []) := by rfl
theorem test_decode_exec : request [0x08, 0x4F, 0x28, 0x01] = .ok (.exec (.yAddress 296), []) := by rfl
theorem test_decode_execBuf :
    request [0x09, 0x24, 0x02, 0x00, 0xE0, 0xA0] = .ok (.execBuf (.writeBlackData [0xE0, 0xA0]), []) := by rfl
theorem test_decode_wait : request [0x0A] = .ok (.wait, []) := by rfl
theorem test_decode_clear : request [0x10, 0x01] = .ok (.clear .white, []) := by rfl
theorem test_decode_setPixel :
    request [0x11, 0x07, 0, 0, 0, 0x02, 0x01, 0, 0, 0x02] = .ok (.setPixel 7 258 .red, []) := by rfl
theorem test_decode_drawPixels :
    request [0x12, 0x01, 0x00, 0x01, 0, 0, 0, 0x02, 0, 0, 0, 0x01] = .ok (.drawPixels [⟨1, 2, .white⟩], []) := by rfl
theorem test_decode_gfxUpdate : request [0x13] = .ok (.gfxUpdate, []) := by rfl
theorem test_decode_planeWrite : request [0x14, 0x01, 0x02, 0x01, 0x80] = .ok (.planeWrite .red 258 0x80, []) := by rfl
theorem test_decode_planeRead : request [0x15, 0x00, 0x02, 0x00] = .ok (.planeRead .black 2, []) := by rfl

/-- H1 to H8: each illegal byte string is rejected, under the model's name for its reason. -/
theorem test_decode_illegal :
    (request [0x05], request [0x08, 0x24], request [0x08, 0x99], request [0x09, 0x12, 0x00, 0x00]) =
      (.error .unknownCode, .error .badOpcode, .error .badOpcode, .error .badBufOpcode) ∧
    (request [0x10, 0x03], request [0x14, 0x02, 0x00, 0x00, 0xFF], request [0x08, 0x4F, 0x28],
     request [0x02, 0x03, 0x00, 0xFF, 0xFF]) =
      (.error .badColor, .error .badPlane, .error .truncated, .error .truncated) := by
  constructor <;> rfl

/-- Table words: the second byte of a request is bits 15..8. -/
theorem test_tableWord :
    (decodeTableWord 8 0x0A, decodeTableWord 16 0x0110, decodeTableWord 8 0x4E) =
      (some .wait, some (.clear .white), some (.xAddress 0)) := by decide

/-! ### The wire commands, through EXEC and EXEC_BUF (the E rows of spec/95_test_vectors.md) -/

theorem test_E2 : traceAfter [0x08, 0x01, 0x28, 0x01, 0x00] = some [.cmd 0x01, .data [0x28, 0x01, 0x00]] := by decide
theorem test_E3 : faultAfter [0x08, 0x01, 0x29, 0x01, 0x00] =
    some (some ⟨.argOutOfRange, .command (.fixed (.driverOutputControl 297 0))⟩) := by decide
theorem test_E5 : traceAfter [0x08, 0x03, 0x11] = some [.cmd 0x03, .data [0x11]] := by decide
theorem test_E6 : traceAfter [0x08, 0x04, 0x2D, 0xB2, 0x22] = some [.cmd 0x04, .data [0x2D, 0xB2, 0x22]] := by decide
theorem test_E7 : faultAfter [0x08, 0x0C, 0xD7, 0xD6, 0x9D, 0x00] =
    some (some ⟨.unimplementedCommand, .name .boosterEnable⟩) := by decide
theorem test_E8 : traceOf (.exec (.boosterEnable 0xD7 0xD6 0x9D 0x00)) extraBench =
    some [.cmd 0x0C, .data [0xD7, 0xD6, 0x9D, 0x00]] := by decide
theorem test_E9 : traceOf (.exec (.gateScanStartPosition 295)) extraBench =
    some [.cmd 0x0F, .data [0x27, 0x01]] := by decide
theorem test_E10 : (nextOf (exec (.exec (.gateScanStartPosition 296)) extraBench)).map State.fault =
    some (some ⟨.argOutOfRange, .command (.fixed (.gateScanStartPosition 296))⟩) := by decide
theorem test_E13 : traceAfter [0x08, 0x10, 0x03] = some [.cmd 0x10, .data [0x03]] := by decide
theorem test_E14 : faultAfter [0x08, 0x10, 0x02] =
    some (some ⟨.illegalRequest, .requestBytes [0x08, 0x10, 0x02]⟩) := by decide
theorem test_E22 : traceAfter [0x08, 0x11, 0x07] = some [.cmd 0x11, .data [0x07]] := by decide
theorem test_E23 : faultAfter [0x08, 0x11, 0x08] =
    some (some ⟨.illegalRequest, .requestBytes [0x08, 0x11, 0x08]⟩) := by decide
theorem test_E24 : traceAfter [0x08, 0x12] = some [.cmd 0x12] := by decide
theorem test_E25 : traceAfter [0x08, 0x20] = some [.cmd 0x20] := by decide
theorem test_E26 : traceAfter [0x08, 0x22, 0xC7] = some [.cmd 0x22, .data [0xC7]] := by decide
theorem test_E27 : traceAfter [0x08, 0x2C, 0x3C] = some [.cmd 0x2C, .data [0x3C]] := by decide
theorem test_E28 : traceAfter [0x08, 0x3A, 0x7F] = some [.cmd 0x3A, .data [0x7F]] := by decide
theorem test_E29 : faultAfter [0x08, 0x3A, 0x80] =
    some (some ⟨.argOutOfRange, .command (.fixed (.dummyLinePeriod 0x80))⟩) := by decide
theorem test_E30 : traceAfter [0x08, 0x3B, 0x04] = some [.cmd 0x3B, .data [0x04]] := by decide
theorem test_E31 : traceAfter [0x08, 0x3C, 0x01] = some [.cmd 0x3C, .data [0x01]] := by decide
theorem test_E33 : faultAfter [0x08, 0x44, 0x00, 0x14] =
    some (some ⟨.argOutOfRange, .command (.fixed (.startEndXPosition 0 20))⟩) := by decide
theorem test_E34 : traceAfter [0x08, 0x44, 0x05, 0x02] = some [.cmd 0x44, .data [0x05, 0x02]] := by decide
theorem test_E35 : traceAfter [0x08, 0x45, 0x00, 0x00, 0x28, 0x01] =
    some [.cmd 0x45, .data [0x00, 0x00, 0x28, 0x01]] := by decide
theorem test_E36 : faultAfter [0x08, 0x45, 0x29, 0x01, 0x00, 0x00] =
    some (some ⟨.argOutOfRange, .command (.fixed (.startEndYPosition 297 0))⟩) := by decide
theorem test_E38 : faultAfter [0x08, 0x4E, 0x14] =
    some (some ⟨.argOutOfRange, .command (.fixed (.xAddress 20))⟩) := by decide
theorem test_E39 : traceAfter [0x08, 0x4F, 0x28, 0x01] = some [.cmd 0x4F, .data [0x28, 0x01]] := by decide
theorem test_E40 : faultAfter [0x08, 0x4F, 0x29, 0x01] =
    some (some ⟨.argOutOfRange, .command (.fixed (.yAddress 297))⟩) := by decide
theorem test_E41 : traceAfter [0x08, 0x74, 0x54] = some [.cmd 0x74, .data [0x54]] := by decide
theorem test_E42 : traceAfter [0x08, 0x7E, 0x3B] = some [.cmd 0x7E, .data [0x3B]] := by decide
theorem test_E43 : traceAfter [0x09, 0x24, 0x03, 0x00, 0xE0, 0xA0, 0xE0] =
    some [.cmd 0x24, .data [0xE0, 0xA0, 0xE0]] := by decide
theorem test_E44 : traceAfter [0x09, 0x24, 0x00, 0x00] = some [.cmd 0x24] := by decide
theorem test_E45 : traceAfter [0x09, 0x26, 0x01, 0x00, 0xFF] = some [.cmd 0x26, .data [0xFF]] := by decide
theorem test_E47 : (nextOf (exec (.execBuf (.writeLut (List.replicate 69 0))) bench)).map State.trace = some [] := by
  decide
theorem test_E48 : traceOf (.execBuf (.writeLut [])) laxBench = some [.cmd 0x32] := by decide
theorem test_E49 : (nextOf (exec (.xAddress 5) { bench with sendPlan := [some 9] })).map
    (fun t => (t.trace, t.seq, t.lastErr, t.responses)) =
      some ([.cmdFailed 0x4E 9], .errored, some 9, [.errTransport 9]) := by decide
theorem test_E50 : (nextOf (exec (.writeRedData [0x01, 0x02]) { bench with sendPlan := [none, some 9] })).map
    (fun t => (t.trace, t.seq, t.lastErr)) =
      some ([.cmd 0x26, .dataFailed [0x01, 0x02] 9], .errored, some 9) := by decide

/-! ### The sequencer (the S rows) -/

/-- S1 and program P1, step 1: the 21 events. -/
theorem test_S1 : (nextOf (exec .reset bench)).map (fun t => (t.trace, t.seq, t.responses)) = some
    ([.resetPulse, .cmd 0x12, .waitBusy, .cmd 0x74, .data [0x54], .cmd 0x7E, .data [0x3B],
      .cmd 0x01, .data [0x03, 0x00, 0x00], .cmd 0x3A, .data [0x07], .cmd 0x3B, .data [0x04],
      .cmd 0x2C, .data [0x3C], .cmd 0x11, .data [0x03], .cmd 0x44, .data [0x00, 0x00],
      .cmd 0x45, .data [0x00, 0x00, 0x03, 0x00]], .ready, [.ok]) := by decide

/-- S9: the DATA of 0x7E fails. -/
theorem test_S9 : (nextOf (exec .reset { bench with sendPlan := [none, none, none, none, some 9] })).map
    (fun t => (t.trace, t.seq)) = some
    ([.resetPulse, .cmd 0x12, .waitBusy, .cmd 0x74, .data [0x54], .cmd 0x7E, .dataFailed [0x3B] 9], .errored) := by
  decide

/-- S11: the fourth black byte is dropped. -/
theorem test_S11 : (nextOf (exec (.update [1, 2, 3, 4] [5, 6, 7]) (benchIn .ready))).map
    (fun t => (t.trace, t.seq)) = some
    ([.cmd 0x4E, .data [0], .cmd 0x4F, .data [0, 0], .cmd 0x24, .data [1, 2, 3], .cmd 0x4E, .data [0],
      .cmd 0x4F, .data [0, 0], .cmd 0x26, .data [5, 6, 7], .cmd 0x22, .data [0xC7], .cmd 0x20, .delay 7,
      .waitBusy], .ready) := by decide

/-- S12: a short buffer. -/
theorem test_S12 : (nextOf (exec (.update [1, 2] [5, 6, 7]) (benchIn .ready))).map
    (fun t => (t.trace, t.seq, t.fault)) =
      some ([], .ready, some ⟨.contractViolation, .shortBuffer 2 3 3⟩) := by decide

/-- S15: busy stays set after UpdateDisplay, so GFX_UPDATE is held at step 11 of its list (index 10). -/
theorem test_S15 : (nextOf (exec .gfxUpdate { benchIn .ready with busyPlan := [true] })).map
    (fun t => (t.trace.length, t.seq, t.pos, t.responses)) =
      some (16, .updating, .running .gfxUpdate false 10, []) := by decide

/-- GFX_UPDATE of P2's planes: the bytes stream in index order. -/
theorem test_gfxUpdate : (traceOf .gfxUpdate { benchIn .ready with
    black := [(0, 0xE0), (1, 0xA0), (2, 0xE0)], red := [(0, 0), (1, 0), (2, 0)] }).map (fun l => (l[5]?, l[11]?)) =
      some (some (.data [0xE0, 0xA0, 0xE0]), some (.data [0, 0, 0])) := by decide

/-- S16 and S17: from READY, and misused from SLEEPING. -/
theorem test_S16 : (nextOf (exec .deepSleep (benchIn .ready))).map (fun t => (t.trace, t.seq, t.misuse)) =
    some ([.cmd 0x10, .data [0x01]], .sleeping, false) := by decide
theorem test_S17 : (nextOf (exec .deepSleep (benchIn .sleeping))).map (fun t => (t.trace, t.seq, t.misuse)) =
    some ([.cmd 0x10, .data [0x01]], .sleeping, true) := by decide

/-- R342: a misused UPDATE held at its busy-wait has a controller of which nothing is known (from when: log 13). -/
theorem test_misused_held : (nextOf (exec (.update [1, 2, 3] [4, 5, 6]) { benchIn .sleeping with
    busyPlan := [true], ctrl := { bench.ctrl with asleep := some true, bwRam := some [9] } })).map
      (fun t => (t.seq, t.trace.length, t.ctrl.asleep, t.ctrl.bwRam, t.ctrl.lost)) =
    some (.sleeping, 16, none, none, true) := by rfl

theorem test_S18 : traceOf .wait bench = some [.waitBusy] := by decide
theorem test_S19 : (nextOf (exec .status (benchIn .ready))).map State.responses =
    some [.okStatus .ready false none] := by decide
theorem test_S20 : (nextOf (exec (.exec .softReset) (benchIn .sleeping))).map (fun t => (t.trace, t.seq)) =
    some ([.cmd 0x12], .sleeping) := by decide

/-! ### The framebuffer -/

/-- Width 16 and height 4. -/
def wide (r : Rotation) : Cfg := { rows := 4, cols := 16, rotation := r }

/-- The transform of a pixel inside the bounds. -/
def place (r : Rotation) (x y : Nat) : Option (Nat × Byte) :=
  if outside (wide r) x y then none else some (transform (wide r) x y)

/-- Rows (3, 0), (9, 1) and (7, 0) of the rotation table. -/
theorem test_rotation_rows :
    [place .rot0 3 0, place .rot90 3 0, place .rot180 3 0, place .rot270 3 0] =
      [some (0, 0x10), some (7, 0x01), some (7, 0x08), some (0, 0x80)] ∧
    [place .rot0 9 1, place .rot90 9 1, place .rot180 9 1, place .rot270 9 1] =
      [some (3, 0x40), none, some (4, 0x02), none] ∧
    [place .rot0 7 0, place .rot90 7 0, place .rot180 7 0, place .rot270 7 0] =
      [some (0, 0x01), none, some (7, 0x80), none] := by decide

/-- Rows (1, 9), (0, 15) and (0, 16), the last of them inside no rotation. -/
theorem test_rotation_columns :
    [place .rot0 1 9, place .rot90 1 9, place .rot180 1 9, place .rot270 1 9] =
      [none, some (2, 0x02), none, some (5, 0x40)] ∧
    [place .rot90 0 15, place .rot270 0 15] = [some (0, 0x80), some (7, 0x01)] ∧
    [place .rot0 0 16, place .rot90 0 16, place .rot180 0 16, place .rot270 0 16] = [none, none, none, none] := by
  decide

/-- The colour table: black 0xAA, red 0x0F, m = 0x04. -/
theorem test_colours :
    (applyColor .black 0x04 0xAA 0x0F, applyColor .white 0x04 0xAA 0x0F, applyColor .red 0x04 0xAA 0x0F) =
      ((0xAA, 0x0B), (0xAE, 0x0B), (0xAE, 0x0F)) := by decide

/-- W2. -/
theorem test_clear : planesOf (.clear .red) bench = some ([0xFF, 0xFF, 0xFF], [0xFF, 0xFF, 0xFF]) := by decide

/-- P1, step 4, and W5. -/
theorem test_setPixel : planesOf (.setPixel 7 2 .red) whiteBench = some ([0xFF, 0xFF, 0xFF], [0x00, 0x00, 0x01]) := by
  decide
theorem test_setPixel_outside : planesOf (.setPixel 8 0 .black) whiteBench =
    some ([0xFF, 0xFF, 0xFF], [0x00, 0x00, 0x00]) := by decide

/-- The DRAW_PIXELS vector with a dropped pixel, and one pixel twice. -/
theorem test_drawPixels : planesOf (.drawPixels [⟨0, 0, .black⟩, ⟨9, 0, .black⟩, ⟨1, 0, .red⟩]) whiteBench =
    some ([0x7F, 0xFF, 0xFF], [0x40, 0x00, 0x00]) := by decide
theorem test_drawPixels_twice : planesOf (.drawPixels [⟨0, 0, .red⟩, ⟨0, 0, .black⟩]) whiteBench =
    some ([0x7F, 0xFF, 0xFF], [0x00, 0x00, 0x00]) := by decide

theorem test_planeWrite : planesOf (.planeWrite .red 0 0x80) whiteBench =
    some ([0xFF, 0xFF, 0xFF], [0x80, 0x00, 0x00]) := by decide
theorem test_planeWrite_outside : (nextOf (exec (.planeWrite .black 3 0x00) whiteBench)).map State.fault =
    some (some ⟨.argOutOfRange, .planeIndex 3⟩) := by decide
theorem test_planeRead : (nextOf (exec (.planeRead .black 2) whiteBench)).map State.responses =
    some [.okByte 0xFF] := by decide

/-! ### The builder (the B rows) -/

theorem test_build :
    (build Params.standard [], build Params.standard [.dimensions 3 12, .dummyLinePeriod 0x80]) =
      (.configError, .fault ⟨.geometryInvalid, .geometry 3 12⟩) ∧
    build Params.standard [.dimensions 3 8, .dummyLinePeriod 0x80] =
      .fault ⟨.argOutOfRange, .buildDummyLinePeriod 0x80⟩ ∧
    build Params.standard [.dimensions 3 8, .vcom 0x10, .vcom 0x20] =
      .built { rows := 3, cols := 8, vcom := 0x20 } := by
  refine ⟨?_, ?_, ?_⟩ <;> rfl

/-! ### Placed table words: the next step runs exactly the word -/

theorem test_withFetchWord_request :
    nextOf (step (State.reset.withFetchWord 8 0x04)) = nextOf (exec .status State.reset) := by rfl

theorem test_withFetchWord_wire :
    (nextOf (step (bench.withFetchWord 8 0x4E))).map State.trace = some [.cmd 0x4E, .data [0x00]] := by decide

/-! ### Witnesses: states and operands that meet the hypotheses of the statements -/

/-- Encodings: parameters that are well-formed, and a request with every length at its limit's shape. -/
theorem witness_paramsOk : paramsOk bench.params = true ∧ paramsOk State.reset.params = true := by decide

theorem witness_RequestRoundTrip :
    paramsOk bench.params = true ∧ (Instr.update [0xFF] []).isRequest = true ∧
      (Instr.update [0xFF] []).wellFormed = true := by decide

theorem witness_DecodedBytesAreTheEncoding : request [0x10, 0x01, 0x55] = .ok (.clear .white, [0x55]) := by rfl

theorem witness_StepRunsTheDecodedRequest :
    (benchWith [0x04]).accepting ∧ (benchWith [0x04]).inbox = [0x04] :: [] ∧
      decode (benchWith [0x04]).params [0x04] = .ok (.status, []) := ⟨⟨rfl, rfl⟩, rfl, rfl⟩

/-- A RESET with a border waveform: its second step, the soft reset, and a bracketed one of R196. -/
theorem witness_StepRunsTheWireInstruction :
    borderBench.fault = none ∧
      ((stepsOf borderBench .reset)[1]?.bind Micro.command = some (.fixed .softReset)) ∧
      ((stepsOf borderBench .reset)[12]? = some (.sendIf (some (.fixed (.borderWaveform 0x05))))) := by
  decide

/-- Every form of an illegal byte string, at the first value past the legal ones. -/
theorem witness_IllegalRequestsFault :
    paramsOk (benchWith [0x05]).params = true ∧ (benchWith [0x05]).accepting ∧
    IllegalForm bench.params [0x05] ∧ IllegalForm bench.params [0x10, 0x03] ∧
    IllegalForm bench.params [0x11, 0, 0, 0, 0, 0, 0, 0, 0, 0x03] ∧
    IllegalForm bench.params [0x12, 0x01, 0x00, 0, 0, 0, 0, 0, 0, 0, 0, 0x03] ∧
    IllegalForm bench.params [0x14, 0x02] ∧ IllegalForm bench.params [0x15, 0x02] ∧
    IllegalForm bench.params [0x09, 0x12] ∧ IllegalForm bench.params [0x08, 0x24, 0x00] ∧
    IllegalForm bench.params [0x08, 0x10, 0x02] ∧ IllegalForm bench.params [0x08, 0x11, 0x08] ∧
    IllegalForm bench.params [0x02, 0x01] := by
  refine ⟨by decide, ⟨rfl, rfl⟩, .code _ _ (by intro k; cases k <;> decide), ?_, ?_, ?_, ?_, ?_, ?_, ?_, ?_, ?_, ?_⟩
  · exact .clearColor _ _ (by decide) (by decide) (by decide)
  · exact .pixelColor _ _ _ _ _ _ _ _ _ _ (by decide) (by decide) (by decide)
  · exact .recordColor [] 3 1 0 0 0 0 0 0 0 0 [] (by decide) (by decide) (by decide) (by decide)
  · exact .writePlane _ _ (by decide) (by decide)
  · exact .readPlane _ _ (by decide) (by decide)
  · exact .bufOpcode _ _ (by decide) (by decide) (by decide)
  · exact .execOpcode _ _ (by intro k h; cases k <;> first | exact absurd rfl h | decide)
  · exact .sleepCode _ _ (by decide) (by decide) (by decide)
  · exact .entryBits _ _ (by decide)
  · exact .truncated (.update [0xAA] []) 2 rfl (by decide) (by decide)

theorem witness_HaltedBlockAcceptsNothing :
    ({ bench with fault := some ⟨.argOutOfRange, .planeIndex 3⟩ }).fault =
      some ⟨.argOutOfRange, .planeIndex 3⟩ := by decide

/-- The bench makes forty good sends; no statement asks for more than a RESET with every option makes. -/
theorem witness_sendsOk : bench.fault = none ∧ bench.accepting ∧ bench.sendsOk 40 ∧ bench.busyClear := by
  refine ⟨rfl, ⟨rfl, rfl⟩, ?_, by unfold State.busyClear; decide⟩
  unfold State.sendsOk
  decide

/-- The ranges at their boundaries: 127 and 128, 19 and 20. -/
theorem witness_RangedByteCommands :
    (0x7F#8).toNat ≤ bench.params.maxDummyLinePeriod ∧ bench.params.maxDummyLinePeriod < (0x80#8).toNat ∧
    (19#8).toNat + 1 ≤ bench.params.maxSourceOutputs / 8 ∧
    bench.params.maxSourceOutputs / 8 < (20#8).toNat + 1 := by decide

/-- 296 and 297, for the gate count and both kinds of Y operand. -/
theorem witness_GateCountAndYAddress :
    (296#16).toNat ≤ bench.params.maxGateOutputs ∧ bench.params.maxGateOutputs < (297#16).toNat := by decide

theorem witness_WindowCommands :
    ((5#8).toNat + 1 ≤ bench.params.maxSourceOutputs / 8 ∧ (2#8).toNat + 1 ≤ bench.params.maxSourceOutputs / 8) ∧
    ¬ ((0#8).toNat + 1 ≤ bench.params.maxSourceOutputs / 8 ∧ (20#8).toNat + 1 ≤ bench.params.maxSourceOutputs / 8) ∧
    ((0#16).toNat ≤ bench.params.maxGateOutputs ∧ (296#16).toNat ≤ bench.params.maxGateOutputs) ∧
    ¬ ((297#16).toNat ≤ bench.params.maxGateOutputs ∧ (0#16).toNat ≤ bench.params.maxGateOutputs) := by decide

theorem witness_ExtraCommands :
    bench.params.admitGkExtra = false ∧ extraBench.params.admitGkExtra = true ∧ extraBench.fault = none ∧
    (295#16).toNat < extraBench.params.maxGateOutputs ∧ extraBench.params.maxGateOutputs ≤ (296#16).toNat ∧
    extraBench.sendsOk 2 := by
  refine ⟨rfl, rfl, rfl, by decide, by decide, ?_⟩
  unfold State.sendsOk
  decide

theorem witness_BufferCommands :
    bench.params.lutStrict = true ∧ (List.replicate 70 (0 : Byte)).length = bench.params.lutLen ∧
    (List.replicate 69 (0 : Byte)).length ≠ bench.params.lutLen ∧ laxBench.params.lutStrict = false := by decide

/-- A send that fails at the CMD, and one that fails at the DATA. -/
theorem witness_FailedSend :
    commandFault bench.params (.fixed (.xAddress 5)) = none ∧
    ({ bench with sendPlan := [some 9] }).sendResult 0 = some 9 ∧
    ({ bench with sendPlan := [none, some 9] }).sendResult 0 = none ∧
    ({ bench with sendPlan := [none, some 9] }).sendResult 1 = some 9 ∧
    WireCmd.data bench.params (.fixed (.xAddress 5)) ≠ [] := by decide

/-- RESET, UPDATE and GFX_UPDATE: a legal configuration, and the frames of a RESET counted. -/
theorem witness_ResetCompletes :
    Cfg.legal bench.params bench.cfg = true ∧ 1 + (initEvents bench.params bench.cfg).length = 19 := by decide

theorem witness_ResetTraceHasTwentyOneEvents :
    ({ bench with params := Params.standard }).params = Params.standard ∧
    Cfg.legal Params.standard bench.cfg = true ∧ bench.cfg.lut = none := ⟨rfl, by decide, rfl⟩

theorem witness_ResetHolds : ({ bench with busyPlan := [true] }).busyLevel 0 = true ∧
    ({ bench with busyPlan := [true] }).accepting := ⟨by decide, rfl, rfl⟩

/-- Buffers of exactly the plane's length, and one byte short. -/
theorem witness_Update :
    bench.cfg.planeLen ≤ [1, 2, 3].length ∧ ([1, 2].length < bench.cfg.planeLen ∨ [1, 2, 3].length < bench.cfg.planeLen) ∧
    ¬ ([1, 2, 3].length < bench.cfg.planeLen ∨ [1, 2, 3, 4].length < bench.cfg.planeLen) := by decide

theorem witness_ExecCompletes :
    ((∃ f, WireCmd.fixed (.xAddress 19) = .fixed f ∧ Instr.exec (.xAddress 19) = .exec f) ∨
      ∃ b, WireCmd.fixed (.xAddress 19) = .buffer b ∧ Instr.exec (.xAddress 19) = .execBuf b) ∧
    commandFault bench.params (.fixed (.xAddress 19)) = none ∧
    commandFault bench.params (.buffer (.writeRedData [])) = none := by
  refine ⟨.inl ⟨_, rfl, rfl⟩, by decide, by decide⟩

theorem witness_ExecFaults :
    (Command.gateScanStartPosition 400).kind = .gateScanStartPosition ∧ bench.params.admitGkExtra = false ∧
    (Command.xAddress 20).kind ≠ .boosterEnable ∧ (Command.xAddress 20).kind ≠ .gateScanStartPosition ∧
    commandInRange bench.params (.xAddress 20) = false ∧
    commandInRange extraBench.params (.gateScanStartPosition 296) = false ∧
    bench.params.lutStrict = true ∧ (List.replicate 69 (0 : Byte)).length ≠ bench.params.lutLen := by decide

theorem witness_Wait : bench.busyLevel bench.pollCount = false ∧
    ({ bench with busyPlan := [true] }).busyLevel 0 = true := by decide

/-- WAIT at its busy-wait: busy for one poll and then clear, and clear at the very next poll (n = 1 and n = 0). -/
theorem witness_BusyWaitHolds :
    (stepsOf bench .wait)[0]? = some .waitBusy ∧
    (∀ j, j < 1 → ({ bench with busyPlan := [true, false] }).busyLevel (0 + j) = true) ∧
    ({ bench with busyPlan := [true, false] }).busyLevel (0 + 1) = false ∧ bench.busyLevel (0 + 0) = false := by
  decide

/-- An UPDATE held at its busy-wait, and one that an accepting block takes; busy clears at the poll after the next. -/
theorem witness_RequestsEnd :
    State.Inv { updating 10 [] with busyPlan := [true, false] } ∧
    ({ updating 10 [] with busyPlan := [true, false] }).busyFair ∧
    State.Inv { bench with busyPlan := [true, false] } ∧ ({ bench with busyPlan := [true, false] }).busyFair ∧
    bench.accepting ∧ requestFault { bench with busyPlan := [true, false] } (.update [1, 2, 3] [4, 5, 6]) = none :=
  ⟨⟨by decide, ⟨rfl, rfl⟩, ⟨rfl, rfl⟩, ⟨by decide, by decide, nofun⟩, ⟨nofun, fun _ => ⟨.inl ⟨_, _, rfl⟩, rfl⟩⟩,
      nofun, nofun, nofun, nofun, nofun⟩, ⟨1, by decide⟩,
    ⟨by decide, ⟨rfl, rfl⟩, ⟨rfl, rfl⟩, trivial, ⟨nofun, nofun⟩, nofun, nofun, nofun, nofun, nofun⟩, ⟨1, by decide⟩,
    ⟨rfl, rfl⟩, by decide⟩

/-- The last byte of the plane and the first index past it; a pixel at the last corner and one past it. -/
theorem witness_planes :
    (2#16).toNat < bench.cfg.planeLen ∧ bench.cfg.planeLen ≤ (3#16).toNat ∧ outside bench.cfg 7 2 = false ∧
    outside bench.cfg 8 0 = true ∧ outside bench.cfg 0 3 = true := by decide

/-- The largest operand of SET_PIXEL fits at COORD_W = 32; at COORD_W = 8, 255 does and 256 does not. -/
theorem witness_coordinates :
    (0xFFFFFFFF#32).toNat < 2 ^ bench.params.coordW ∧ coordOf bench.params 0xFFFFFFFF = 0xFFFFFFFF ∧
    (255#32).toNat < 2 ^ ({ bench.params with coordW := 8 }).coordW ∧
    ¬ (256#32).toNat < 2 ^ ({ bench.params with coordW := 8 }).coordW := by decide

theorem witness_Transform : nativeGrid (wide .rot90) ∧ outside (wide .rot90) 3 15 = false ∧
    transform (wide .rot90) 3 15 = (6, 0x80) := by
  unfold nativeGrid
  decide

theorem witness_OpenPair :
    Cfg.legal whiteBench.params whiteBench.cfg = true ∧ 2 < whiteBench.cfg.planeLen ∧ ¬ openPair whiteBench 2 7 ∧
    (∃ t, exec (.clear .red) whiteBench = .next t) ∧ (∃ t, exec (.setPixel 7 2 .red) whiteBench = .next t) ∧
    (∃ t, exec (.drawPixels [⟨7, 2, .red⟩]) whiteBench = .next t) := by
  refine ⟨by decide, by decide, ?_, ⟨_, rfl⟩, ⟨_, rfl⟩, ⟨_, rfl⟩⟩
  unfold openPair
  decide

theorem witness_Build :
    (∀ r c, BuildOption.dimensions r c ∉ [BuildOption.vcom 0x10]) ∧
    ¬ ((12#16).toNat % 8 = 0 ∧ (3#16).toNat ≤ 296 ∧ (12#16).toNat ≤ 160 ∧ 1 ≤ (3#16).toNat ∧ 8 ≤ (12#16).toNat) ∧
    build Params.standard [.dimensions 296 160] = .built { rows := 296, cols := 160 } := by
  refine ⟨by simp, by decide, rfl⟩

/-- A RESET held at its busy-wait meets the invariant, and a step of it answers a next state. -/
theorem witness_Inv :
    (State.Inv { bench with pos := .running .reset false 2, trace := [.resetPulse, .cmd 0x12] }) ∧
    ∃ t, step { bench with pos := .running .reset false 2, trace := [.resetPulse, .cmd 0x12] } = .next t := by
  refine ⟨⟨by decide, ⟨rfl, rfl⟩, ⟨rfl, rfl⟩, ⟨by decide, by decide, nofun⟩, ⟨nofun, nofun⟩, nofun, ?_, nofun, nofun,
    nofun⟩, _, rfl⟩
  intro e he
  simp only [List.mem_cons, List.not_mem_nil, or_false] at he
  rcases he with rfl | rfl
  · trivial
  · exact ⟨.softReset, by decide⟩

theorem witness_StepsOnlyAppend : ∃ t, step (benchWith [0x10, 0x00]) = .next t := ⟨_, rfl⟩

theorem witness_FaultingRequest :
    bench.accepting ∧ (Instr.planeWrite .black 3 0).isRequest = true ∧
    ∃ t, exec (.planeWrite .black 3 0) bench = .next t ∧ t.fault ≠ none := ⟨⟨rfl, rfl⟩, rfl, _, rfl, nofun⟩

theorem witness_PlanesAndTrace :
    (∃ t, exec (.clear .white) bench = .next t) ∧ (∃ t, exec (.planeRead .red 2) bench = .next t) ∧
    ∃ t, exec (.xAddress 0) bench = .next t := ⟨⟨_, rfl⟩, ⟨_, rfl⟩, _, rfl⟩

theorem witness_SequencerTransitions :
    ∃ t, exec .deepSleep (benchIn .ready) = .next t ∧ t.pos = .idle ∧ t.fault = none := ⟨_, rfl, rfl, rfl⟩

theorem witness_Misused :
    (benchIn .sleeping).accepting ∧ (benchIn .sleeping).seq ≠ .ready ∧
    requestFault (benchIn .sleeping) (.update [1, 2, 3] [4, 5, 6]) = none := ⟨⟨rfl, rfl⟩, nofun, by decide⟩

theorem witness_FailedEventIsTheLast :
    ∃ t, exec .deepSleep { bench with sendPlan := [some 9] } = .next t ∧
      t.trace = bench.trace ++ [.cmdFailed 0x10 9] ∧ Event.cmdFailed 0x10 9 ∈ [Event.cmdFailed 0x10 9] :=
  ⟨_, rfl, by decide, by decide⟩

/-- An UPDATE in progress: a step that ends it, one that goes on, one held at the busy-wait, and one whose send fails. -/
theorem witness_RunningStep :
    (∃ t, step (updating 11 []) = .next t ∧ t.pos = .idle ∧ t.seq = .ready) ∧
    (∃ t, step (updating 9 []) = .next t ∧ t.pos = .running (.update [1, 2, 3] [4, 5, 6]) false 10) ∧
    (∃ t, step { updating 10 [] with busyPlan := [true] } = .next t ∧ t.pos = (updating 10 []).pos) ∧
    ∃ t, step { updating 8 [] with sendPlan := [some 9] } = .next t ∧ t.trace = [] ++ [.cmdFailed 0x20 9] ∧
      Event.cmdFailed 0x20 9 ∈ [Event.cmdFailed 0x20 9] :=
  ⟨⟨_, rfl, rfl, rfl⟩, ⟨_, rfl, rfl⟩, ⟨_, rfl, rfl⟩, _, rfl, rfl, by decide⟩

/-- The states at the failing send and at the last step meet the invariant; the draws play no part in it. -/
theorem witness_RunningStep_inv :
    State.Inv { updating 8 [] with sendPlan := [some 9] } ∧ State.Inv (updating 11 []) := by
  constructor <;>
    exact ⟨by decide, ⟨rfl, rfl⟩, ⟨rfl, rfl⟩, ⟨by decide, by decide, nofun⟩,
      ⟨nofun, fun _ => ⟨.inl ⟨_, _, rfl⟩, rfl⟩⟩, nofun, nofun, nofun, nofun, nofun⟩

/-- A request that ends, one that faults and one that is held. -/
theorem witness_OneResponse :
    (∃ t, exec .status bench = .next t ∧ t.pos = .idle ∧ t.fault = none) ∧
    (∃ t, exec (.planeRead .red 3) bench = .next t ∧ t.fault ≠ none) ∧
    ∃ t, exec .wait { bench with busyPlan := [true] } = .next t ∧ t.pos ≠ .idle :=
  ⟨⟨_, rfl, rfl, rfl⟩, ⟨_, rfl, nofun⟩, _, rfl, nofun⟩

theorem witness_Rotation :
    (∀ x y c, Instr.clear .red ≠ .setPixel x y c) ∧ (∀ pxs, Instr.clear .red ≠ .drawPixels pxs) ∧
    (∃ t, exec (.clear .red) bench = .next t) ∧ ∃ t, step (updating 9 []) = .next t := ⟨nofun, nofun, ⟨_, rfl⟩, _, rfl⟩

/-- One DATA of five bytes at a chunk size of 2. -/
theorem witness_Chunking :
    ([[1, 2], [3, 4], [5]] : List (List Byte)) ≠ [] ∧
    Event.chunked 2 (.data [1, 2, 3, 4, 5]) = [.data [1, 2], .data [3, 4], .data [5]] ∧
    joinData [.cmd 0x24, .data [1, 2], .data [3, 4], .data [5]] = [.cmd 0x24, .data [1, 2, 3, 4, 5]] := by decide

theorem witness_SingleSteps :
    bench.accepting ∧ Instr.reset.isRequest = true ∧ requestFault bench .reset = none := ⟨⟨rfl, rfl⟩, rfl, by decide⟩

end Sys2Proof.Tests
end

section
/-! PROOFS. The transport's parameters (spec/00_scope.md R8, spec/10_state.md R51): the block reads neither of them,
so every operation commutes with `behind`. First the readers of the parameters, then the operations from one send up
to one step. -/

namespace Sys2Proof.Claims

open Sys2Proof.Machine

/-! ### A change of the state, carried through the ways an operation ends -/

/-- `f` on the state that one part of a request leaves. -/
def mapFlow (f : State → State) : Flow → Flow
  | .go s => .go (f s)
  | .ended s => .ended (f s)
  | .held s => .held (f s)

/-- `f` on the state that a fetch leaves. -/
def mapFetched (f : State → State) : Fetched → Fetched
  | .nothing => .nothing
  | .illegal s => .illegal (f s)
  | .request i s => .request i (f s)

/-- `f` on the next state of an outcome; a fault or a refusal stays. -/
def mapNext (f : State → State) (o : Host.Outcome State Fault Refusal) : Host.Outcome State Fault Refusal :=
  match o with
  | .next s => .next (f s)
  | .fault r => .fault r
  | .refused r => .refused r

/-- Two parts of a step commute with `f` together when each does. -/
theorem mapFlow_andThen {f : State → State} {g : State → Flow} (hg : ∀ t, g (f t) = mapFlow f (g t)) (o : Flow) :
    (mapFlow f o).andThen g = mapFlow f (o.andThen g) := by
  cases o with
  | go t => exact hg t
  | ended t => rfl
  | held t => rfl

theorem mapFlow_state (f : State → State) (o : Flow) : (mapFlow f o).state = f o.state := by
  cases o <;> rfl

variable (a : Bool) (n : Nat) (s : State)

/-! ### What `behind` leaves alone -/

@[simp] theorem behind_fault : (behind a n s).fault = s.fault := rfl
@[simp] theorem behind_pos : (behind a n s).pos = s.pos := rfl
@[simp] theorem behind_inbox : (behind a n s).inbox = s.inbox := rfl
@[simp] theorem behind_cfg : (behind a n s).cfg = s.cfg := rfl

/-! ### The readers of the parameters read neither of the two -/

@[simp] theorem decode_behind (bytes : List Byte) : decode (behind a n s).params bytes = decode s.params bytes := rfl

@[simp] theorem commandFault_behind (c : WireCmd) :
    commandFault (behind a n s).params c = commandFault s.params c := rfl

@[simp] theorem stepRangeFault_behind : stepRangeFault (behind a n s).params = stepRangeFault s.params := rfl

@[simp] theorem coordOf_behind (field : Coord) : coordOf (behind a n s).params field = coordOf s.params field := rfl

@[simp] theorem planeBytes_behind (p : Plane) : (behind a n s).planeBytes p = s.planeBytes p :=
  State.planeBytesFrom_congr (s := behind a n s) (t := s) p rfl 0 _

@[simp] theorem stepsOf_behind (i : Instr) : stepsOf (behind a n s) i = stepsOf s i := by
  cases i with
  | gfxUpdate => simp only [stepsOf, planeBytes_behind]; rfl
  | _ => rfl

@[simp] theorem ownFault_behind (i : Instr) : ownFault (behind a n s) i = ownFault s i := rfl

@[simp] theorem requestFault_behind (i : Instr) : requestFault (behind a n s) i = requestFault s i := by
  simp [requestFault]

/-! ### The shared operations -/

theorem send_behind (sent : Event) (failed : TransportError → Event) :
    (behind a n s).send sent failed = mapFlow (behind a n) (s.send sent failed) := by
  have draw : (behind a n s).sendResult (behind a n s).sendCount = s.sendResult s.sendCount := rfl
  cases h : s.sendResult s.sendCount with
  | none => rw [State.send_ok _ _ h, State.send_ok _ _ (draw.trans h)]; rfl
  | some e => rw [State.send_err _ _ h, State.send_err _ _ (draw.trans h)]; rfl

theorem emitData_behind (bs : List Byte) :
    (behind a n s).emitData bs = mapFlow (behind a n) (s.emitData bs) := by
  unfold State.emitData
  split
  · rfl
  · exact send_behind a n s _ _

theorem emitWaitBusy_behind : (behind a n s).emitWaitBusy = mapFlow (behind a n) s.emitWaitBusy := by
  have level : (behind a n s).busyLevel (behind a n s).pollCount = s.busyLevel s.pollCount := rfl
  cases h : s.busyLevel s.pollCount with
  | false => rw [State.emitWaitBusy_clear h, State.emitWaitBusy_clear (level.trans h)]; rfl
  | true => rw [State.emitWaitBusy_busy h, State.emitWaitBusy_busy (level.trans h)]; rfl

/-- A frame is its CMD, its DATA and the note of a long operation, and each of the three commutes. -/
theorem sendFrame_behind (c : WireCmd) :
    (behind a n s).sendFrame c = mapFlow (behind a n) (s.sendFrame c) := by
  have cmd : (behind a n s).emitCmd (c.op (behind a n s).params) = mapFlow (behind a n) (s.emitCmd (c.op s.params)) :=
    send_behind a n s _ _
  have data (t : State) : (behind a n t).emitData (c.data (behind a n t).params)
      = mapFlow (behind a n) (t.emitData (c.data t.params)) := emitData_behind a n t _
  unfold State.sendFrame
  rw [cmd, mapFlow_andThen data, mapFlow_andThen fun _ => rfl]

theorem encodeAndSend_behind (c : WireCmd) :
    (behind a n s).encodeAndSend c = mapFlow (behind a n) (s.encodeAndSend c) := by
  cases h : commandFault s.params c with
  | some f => rw [State.encodeAndSend_fault h, State.encodeAndSend_fault (s := behind a n s) h]; rfl
  | none => rw [State.encodeAndSend_send h, State.encodeAndSend_send (s := behind a n s) h, sendFrame_behind]

theorem applyAt_behind (i : Nat) (m : Byte) (c : Color) :
    (behind a n s).applyAt i m c = behind a n (s.applyAt i m c) := rfl

theorem drawPixel_behind (px : Pixel) : (behind a n s).drawPixel px = behind a n (s.drawPixel px) := by
  by_cases h : outside s.cfg (coordOf s.params px.x) (coordOf s.params px.y) = true
  · simp [State.drawPixel, h]
  · simp [State.drawPixel, h, applyAt_behind]

/-! ### Running a request -/

theorem doMicro_behind (m : Micro) : (behind a n s).doMicro m = mapFlow (behind a n) (s.doMicro m) := by
  cases m with
  | send c => exact encodeAndSend_behind a n s c
  | sendIf c =>
    cases c with
    | none => rfl
    | some c => exact encodeAndSend_behind a n s c
  | waitBusy => exact emitWaitBusy_behind a n s
  | pixel px => exact congrArg Flow.go (drawPixel_behind a n s px)
  | writeByte p i v => cases p <;> rfl
  | _ => rfl

theorem settle_mapFlow_behind (o : Flow) : (mapFlow (behind a n) o).settle = behind a n o.settle := by
  cases o <;> rfl

theorem tick_behind : (behind a n s).tick = behind a n s.tick := by
  simp only [State.tick, behind_pos, stepsOf_behind, doMicro_behind, settle_mapFlow_behind]
  split
  · rfl
  · split <;> rfl

theorem runSteps_behind (ms : List Micro) :
    State.runSteps ms (behind a n s) = behind a n (State.runSteps ms s) := by
  induction ms generalizing s with
  | nil => rfl
  | cons m ms ih =>
    have hm := doMicro_behind a n s m
    cases h : s.doMicro m with
    | go t => rw [h] at hm; rw [State.runSteps_go h, State.runSteps_go hm, ← ih]; rfl
    | ended t => rw [h] at hm; rw [State.runSteps_ended h, State.runSteps_ended hm]
    | held t => rw [h] at hm; rw [State.runSteps_held h, State.runSteps_held hm]

theorem perform_behind (i : Instr) : (behind a n s).perform i = behind a n (s.perform i) := by
  simp only [State.perform, requestFault_behind, stepsOf_behind]
  split
  · rfl
  · exact runSteps_behind a n (s.start i) _

/-! ### The meanings and the step -/

theorem runRequest_behind (i : Instr) :
    runRequest i (behind a n s) = mapNext (behind a n) (runRequest i s) := by
  simp only [runRequest, behind_fault, behind_pos, perform_behind]
  split
  · rfl
  · split <;> rfl

theorem runWire_behind (c : WireCmd) : runWire c (behind a n s) = mapNext (behind a n) (runWire c s) := by
  simp only [runWire, behind_fault, encodeAndSend_behind, mapFlow_state]
  split <;> rfl

/-- The meaning of a host request is `runRequest`, that of a wire command `runWire`. -/
theorem exec_behind (i : Instr) : exec i (behind a n s) = mapNext (behind a n) (exec i s) := by
  cases i with
  | reset | update _ _ | deepSleep | status | exec _ | execBuf _ | wait | clear _ | setPixel _ _ _ | drawPixels _
  | gfxUpdate | planeWrite _ _ _ | planeRead _ _ => exact runRequest_behind a n s _
  | _ => exact runWire_behind a n s _

theorem fetch_behind : (behind a n s).fetch = mapFetched (behind a n) s.fetch := by
  simp only [State.fetch, behind_inbox, decode_behind]
  split
  · rfl
  · split <;> rfl

theorem step_behind : step (behind a n s) = mapNext (behind a n) (step s) := by
  simp only [step, behind_fault, behind_pos, fetch_behind]
  split
  · rfl
  · split
    · exact congrArg Host.Outcome.next (tick_behind a n s)
    · cases s.fetch with
      | nothing => rfl
      | illegal t => rfl
      | request i t => exact exec_behind a n t i

/-- Settles O54: `step` and every instruction's meaning commute with `behind`. -/
theorem transportParametersAreInvisible : Obligations.TransportParametersAreInvisible := by
  unfold Obligations.TransportParametersAreInvisible
  exact fun s a n => ⟨step_behind a n s, exec_behind a n s⟩

end Sys2Proof.Claims
end

section
/-! PROOFS. Single steps (spec/10_state.md R31): what one `encode_and_send` and one step of a request can do, and that
running a request is taking its steps one at a time. -/

namespace Sys2Proof.Machine

open Sys2Proof.Claims

/-! ### What one step can do -/

theorem frameEvents_ok (p : Params) (c : WireCmd) :
    ∀ ev ∈ frameEvents (c.op p) (c.data p), eventOk p.opc ev := by
  intro ev hev
  by_cases hd : c.data p = []
  · simp only [frameEvents, hd, List.isEmpty_nil, if_true, List.mem_singleton] at hev
    subst hev
    exact ⟨c.kind, rfl⟩
  · simp only [frameEvents, List.isEmpty_iff, hd, if_false, List.mem_cons, List.not_mem_nil, or_false] at hev
    rcases hev with rfl | rfl
    · exact ⟨c.kind, rfl⟩
    · exact hd

/-- Everything `encode_and_send` can do: the command fails its checks, or its frame goes out and the step goes on, or a
send fails and the request is over. -/
theorem State.encodeAndSend_cases (c : WireCmd) (s : State) :
    (∃ f, commandFault s.params c = some f ∧ s.encodeAndSend c = .ended (s.raiseFault f)) ∨
    (∃ evs n, (∀ ev ∈ evs, eventOk s.params.opc ev) ∧ s.encodeAndSend c = .go { s with
      trace := s.trace ++ evs, sendCount := n, ctrl := s.ctrl.onFrame.afterFrame c.kind }) ∨
    (∃ e evs n, (∀ ev ∈ evs, eventOk s.params.opc ev) ∧ s.encodeAndSend c = .ended (State.transportError e
      { s with trace := s.trace ++ evs, sendCount := n, ctrl := s.ctrl.onFrame })) := by
  cases hc : commandFault s.params c with
  | some f => exact .inl ⟨f, rfl, State.encodeAndSend_fault hc⟩
  | none =>
    rw [State.encodeAndSend_send hc]
    rcases State.sendFrame_cases c s with ⟨_, h⟩ | ⟨e, _, h⟩ | ⟨e, _, hd, _, h⟩
    · exact .inr (.inl ⟨_, _, frameEvents_ok s.params c, h⟩)
    · refine .inr (.inr ⟨e, _, _, ?_, h⟩)
      rintro ev (_ | ⟨_, ⟨⟩⟩)
      exact ⟨c.kind, rfl⟩
    · refine .inr (.inr ⟨e, _, _, ?_, h⟩)
      rintro ev (_ | ⟨_, _ | ⟨_, ⟨⟩⟩⟩)
      · exact ⟨c.kind, rfl⟩
      · exact hd

/-- A step that encodes a command is the `encode_and_send` of it, bracketed or not. -/
theorem State.doMicro_command {m : Micro} {c : WireCmd} (h : m.command = some c) (s : State) :
    s.doMicro m = s.encodeAndSend c := by
  cases m with
  | send c' => cases h; rfl
  | sendIf c' => cases h; rfl
  | _ => cases h

/-- A busy-wait never ends a request. -/
theorem State.emitWaitBusy_ne_ended (s t : State) : s.emitWaitBusy ≠ .ended t := by
  cases h : s.busyLevel s.pollCount
  · simp [State.emitWaitBusy_clear h]
  · simp [State.emitWaitBusy_busy h]

theorem State.doMicro_ended_pos {m : Micro} {s t : State} (h : s.doMicro m = .ended t) : t.pos = .idle := by
  by_cases hm : m = .waitBusy
  · subst hm
    exact absurd h (s.emitWaitBusy_ne_ended t)
  · rcases doMicro_polls hm s with ⟨u, hu, -, -⟩ | ⟨u, hu, hp⟩ <;> rw [hu] at h <;> cases h
    exact hp

/-- Only a busy-wait holds, and it changes the poll count and the seen level alone. -/
theorem State.doMicro_held {m : Micro} {s t : State} (h : s.doMicro m = .held t) :
    m = .waitBusy ∧ t = { s with busyIn := true, pollCount := s.pollCount + 1 } := by
  by_cases hm : m = .waitBusy
  · subst hm
    have h : s.emitWaitBusy = .held t := h
    cases hb : s.busyLevel s.pollCount
    · rw [State.emitWaitBusy_clear hb] at h
      cases h
    · rw [State.emitWaitBusy_busy hb] at h
      cases h
      exact ⟨rfl, rfl⟩
  · rcases doMicro_polls hm s with ⟨u, hu, -, -⟩ | ⟨u, hu, -⟩ <;> rw [hu] at h <;> cases h

/-- The checks of a request read the parameters, the configuration and the step list alone. -/
theorem requestFault_congr {s t : State} {i : Instr} (hp : t.params = s.params) (hc : t.cfg = s.cfg)
    (hs : stepsOf t i = stepsOf s i) : requestFault t i = requestFault s i := by
  have ho : ownFault t i = ownFault s i := by cases i <;> simp [ownFault, hp, hc]
  simp [requestFault, ho, hs, hp]

/-- A completed step of a checked request leaves a checked request, its list the same, at the next position. -/
theorem doMicro_go_checked {s t : State} {req : Instr} {mis : Bool} {k : Nat} {m : Micro}
    (hn : requestFault s req = none) (hp : s.pos = .running req mis k) (hm : (stepsOf s req)[k]? = some m)
    (h : s.doMicro m = .go t) :
    t.nextPos.pos = .running req mis (k + 1) ∧ stepsOf t.nextPos req = stepsOf s req ∧
      requestFault t.nextPos req = none := by
  obtain ⟨hpos, hsteps⟩ := doMicro_go_next hn hp hm h
  have hu := doMicro_untouched m s
  rw [h] at hu
  exact ⟨hpos, hsteps, (requestFault_congr (t := t.nextPos) hu.params hu.cfg hsteps).trans hn⟩

/-- A held step stays where it is, its step list and checks the same. -/
theorem doMicro_held_checked {m : Micro} {s t : State} (h : s.doMicro m = .held t) (req : Instr) :
    t.pos = s.pos ∧ stepsOf t req = stepsOf s req ∧ requestFault t req = requestFault s req := by
  obtain ⟨-, rfl⟩ := State.doMicro_held h
  exact ⟨rfl, stepsOf_congr (s := s) (t := { s with busyIn := true, pollCount := s.pollCount + 1 })
    rfl rfl rfl rfl req⟩

/-! ### A run and its single steps -/

/-- The rest `ms` of a checked request's list, run from position `k`: some number of single steps, up to the request's
end or a held busy-wait. -/
theorem State.runSteps_eq_ticks {ms : List Micro} {s : State} {req : Instr} {mis : Bool} {k : Nat}
    (hn : requestFault s req = none) (hp : s.pos = .running req mis k) (hms : (stepsOf s req).drop k = ms) :
    ∃ n, State.tick^[n] s = State.runSteps ms s ∧
      ((State.runSteps ms s).pos = .idle ∨ (State.runSteps ms s).heldInWait) := by
  induction ms generalizing s k with
  | nil =>
    have hk : (stepsOf s req)[k]? = none := List.getElem?_eq_none (List.drop_eq_nil_iff.mp hms)
    exact ⟨1, by simp [State.tick, hp, hk, State.runSteps], .inl rfl⟩
  | cons m ms ih =>
    have hm : (stepsOf s req)[k]? = some m := by
      rw [← Nat.add_zero k, ← List.getElem?_drop, hms]; rfl
    have hrest : (stepsOf s req).drop (k + 1) = ms := by rw [← List.tail_drop, hms]; rfl
    have htick := State.tick_running hp hm
    cases h : s.doMicro m with
    | go t =>
      obtain ⟨hpos, hsteps, hchk⟩ := doMicro_go_checked hn hp hm h
      obtain ⟨n, hrun, hend⟩ := ih hchk hpos (by rw [hsteps, hrest])
      rw [State.runSteps_go h]
      refine ⟨n + 1, ?_, hend⟩
      rw [Function.iterate_succ_apply, htick, h]
      exact hrun
    | ended t =>
      rw [State.runSteps_ended h]
      exact ⟨1, by simp [htick, h, Flow.settle], .inl (State.doMicro_ended_pos h)⟩
    | held t =>
      rw [State.runSteps_held h]
      obtain ⟨hpos, hsteps, -⟩ := doMicro_held_checked h req
      obtain ⟨rfl, -⟩ := State.doMicro_held h
      refine ⟨1, by simp [htick, h, Flow.settle], .inr ?_⟩
      simp [State.heldInWait, hpos, hp, hsteps, hm]

theorem State.perform_of_fault {s : State} {i : Instr} {f : FaultRecord} (h : requestFault s i = some f) :
    s.perform i = s.raiseFault f := by
  simp [State.perform, h]

theorem State.perform_of_checked {s : State} {i : Instr} (h : requestFault s i = none) :
    s.perform i = State.runSteps (stepsOf s i) (s.start i) := by
  simp [State.perform, h]

/-- A request that passes its checks is performed by single steps from (req, 0). -/
theorem State.perform_eq_ticks {s : State} {i : Instr} (hn : requestFault s i = none) :
    ∃ n, State.tick^[n] (s.start i) = s.perform i ∧ ((s.perform i).pos = .idle ∨ (s.perform i).heldInWait) := by
  have hstart := stepsOf_congr (s := s) (t := s.start i) rfl rfl rfl rfl i
  rw [State.perform_of_checked hn]
  exact State.runSteps_eq_ticks (hstart.2.trans hn) (State.start_pos s i) hstart.1

/-- Settles O56: `exec` performs the request, and that is a run of its step list. -/
theorem requestRunsAsSingleSteps : Obligations.RequestRunsAsSingleSteps := by
  unfold Obligations.RequestRunsAsSingleSteps
  intro s i hacc hreq hn
  obtain ⟨n, hticks, hend⟩ := State.perform_eq_ticks hn
  exact ⟨n, s.perform i, by rw [exec_request hreq, runRequest_accepting hacc], hticks, hend⟩

/-! ### A step that encodes a command -/

/-- Settles O6: both the step and `exec` of the wire instruction are the one `encode_and_send`, which goes on at the
same position or ends the request. -/
theorem stepRunsTheWireInstruction : Obligations.StepRunsTheWireInstruction := by
  unfold Obligations.StepRunsTheWireInstruction
  intro s req mis k m c hf hp hm hc
  have hexec : exec c.toInstr s = .next (s.encodeAndSend c).state := by simp [exec_wire, runWire, hf]
  have hstep : step s = .next (s.encodeAndSend c).settle := by
    rw [step_running hf hp, State.tick_running hp hm, State.doMicro_command hc]
  refine ⟨_, hexec, ?_⟩
  rw [hstep]
  rcases s.encodeAndSend_cases c with ⟨f, -, h⟩ | ⟨evs, n, -, h⟩ | ⟨e, evs, n, -, h⟩ <;> rw [h]
  · exact .inr ⟨rfl, rfl⟩
  · exact .inl ⟨rfl, by simp [Flow.settle, State.nextPos, Flow.state, hp]⟩
  · exact .inr ⟨rfl, rfl⟩

end Sys2Proof.Machine
end

section
/-! PROOFS. The invariant of the machine: the part that does not depend on the position (`Sound`), kept by every step of
a checked request wherever it stands, and the part that ties the sequencer state, the fault and the controller to the
position, kept by a completed step and by every way a request ends. -/

namespace Sys2Proof.Machine

open Sys2Proof.Claims

/-! ### The controller: nothing is known of a lost one, and it stays lost -/

/-- Nothing is known of the controller while it is lost (spec/10_state.md R45). -/
def Ctrl.LostUnknown (c : Ctrl) : Prop :=
  c.lost = true → c.bwRam = none ∧ c.redRam = none ∧ c.asleep = none ∧ c.lut = none

theorem Ctrl.lostUnknown_forget (c : Ctrl) : c.forget.LostUnknown := fun _ => ⟨rfl, rfl, rfl, rfl⟩

theorem Ctrl.lostUnknown_of_not_lost {c : Ctrl} (h : c.lost = false) : c.LostUnknown := by
  intro hl
  rw [h] at hl
  cases hl

theorem Ctrl.LostUnknown.onFrame {c : Ctrl} (h : c.LostUnknown) : c.onFrame.LostUnknown := by
  unfold Ctrl.onFrame
  split
  · exact c.lostUnknown_forget
  · exact h

theorem Ctrl.LostUnknown.onRequest {c : Ctrl} (h : c.LostUnknown) (b : Bool) : (c.onRequest b).LostUnknown := by
  cases b
  · exact h
  · exact c.lostUnknown_forget

theorem Ctrl.LostUnknown.afterUpdate {c : Ctrl} (h : c.LostUnknown) (black red : List Byte) :
    (c.afterUpdate black red).LostUnknown := by
  cases hl : c.lost
  · exact Ctrl.lostUnknown_of_not_lost (by simp [Ctrl.afterUpdate, hl])
  · simpa [Ctrl.afterUpdate, hl] using h

theorem Ctrl.LostUnknown.afterSleep {c : Ctrl} (h : c.LostUnknown) : c.afterSleep.LostUnknown := by
  cases hl : c.lost
  · exact Ctrl.lostUnknown_of_not_lost (by simp [Ctrl.afterSleep, hl])
  · simpa [Ctrl.afterSleep, hl] using h

theorem Ctrl.onFrame_lost {c : Ctrl} (h : c.lost = true) : c.onFrame.lost = true := by
  unfold Ctrl.onFrame
  split
  · rfl
  · exact h

theorem Ctrl.onRequest_lost {c : Ctrl} (h : c.lost = true) (b : Bool) : (c.onRequest b).lost = true := by
  cases b
  · exact h
  · rfl

/-! ### The part of the invariant that holds wherever the request stands -/

/-- The invariant without the clauses about the position. -/
structure State.Sound (s : State) : Prop where
  cfgLegal : Cfg.legal s.params s.cfg = true
  blackOk : planeOk s.cfg s.black
  redOk : planeOk s.cfg s.red
  events : ∀ e ∈ s.trace, eventOk s.params.opc e
  lostUnknown : s.ctrl.LostUnknown

theorem State.Inv.sound {s : State} (h : s.Inv) : s.Sound :=
  ⟨h.cfgLegal, h.blackOk, h.redOk, h.events, h.lostUnknown⟩

theorem planeOk_store {cfg : Cfg} {m : Memory} (h : planeOk cfg m) {i : Nat} (hi : i < cfg.planeLen) (v : Byte) :
    planeOk cfg (m.store i v) :=
  ⟨Memory.wf_store h.1 i v, Memory.below_store h.2 hi v⟩

theorem planeOk_fill {cfg : Cfg} {m : Memory} (h : planeOk cfg m) (v : Byte) :
    planeOk cfg (m.fill v cfg.planeLen) :=
  ⟨Memory.wf_fill h.1 v _, Memory.below_fill h.2 v (Nat.le_refl _)⟩

theorem events_append {o : Opc} {trace evs : List Event} (h : ∀ e ∈ trace, eventOk o e)
    (h' : ∀ e ∈ evs, eventOk o e) :
    ∀ e ∈ trace ++ evs, eventOk o e := by
  intro e he
  exact (List.mem_append.mp he).elim (h e) (h' e)

theorem Cfg.legal_geometry {p : Params} {cfg : Cfg} (h : Cfg.legal p cfg = true) : nativeGrid cfg := by
  simp only [Cfg.legal, geometryOk, Bool.and_eq_true, decide_eq_true_eq] at h
  obtain ⟨⟨⟨⟨⟨⟨hmod, -⟩, -⟩, hrows⟩, hcols⟩, -⟩, -⟩ := h
  exact ⟨hmod, hcols, hrows⟩

/-- On a native grid no byte of a plane is shared by two rows. -/
theorem planeLen_of_nativeGrid {cfg : Cfg} (h : nativeGrid cfg) : cfg.planeLen = cfg.height * (cfg.width / 8) := by
  obtain ⟨hmod, -, -⟩ := h
  obtain ⟨w, hw⟩ := Nat.dvd_of_mod_eq_zero hmod
  have hbits : cfg.height * (8 * w) = 8 * (cfg.height * w) := Nat.mul_left_comm ..
  simp only [Cfg.planeLen, Cfg.width, hw, hbits]
  rw [Nat.mul_div_cancel_left w (by decide)]
  omega

/-- Column `a` of row `b` lies inside a grid of `rows` rows of `cols` bytes each. -/
theorem grid_index_lt {a b rows cols : Nat} (ha : a < cols) (hb : b < rows) : a + cols * b < rows * cols :=
  calc a + cols * b < cols + cols * b := Nat.add_lt_add_right ha _
    _ = (b + 1) * cols := by ring
    _ ≤ rows * cols := Nat.mul_le_mul_right _ hb

/-- A pixel inside the bounds is a byte inside the plane (spec/42_framebuffer.md R239). -/
theorem transform_index_lt {cfg : Cfg} (h : nativeGrid cfg) {x y : Nat} (hin : outside cfg x y = false) :
    (transform cfg x y).1 < cfg.planeLen := by
  rw [planeLen_of_nativeGrid h]
  obtain ⟨hmod, hcols, hrows⟩ := h
  have hw : cfg.width % 8 = 0 := hmod
  have hw8 : 8 ≤ cfg.width := hcols
  cases hr : cfg.rotation <;> simp only [outside, hr, Bool.or_eq_false_iff, decide_eq_false_iff_not, not_le] at hin <;>
    obtain ⟨hcol, hrow⟩ := hin <;> simp only [transform, hr]
  case rot0 => exact grid_index_lt (by omega) hrow
  case rot90 => exact grid_index_lt (by omega) hrow
  case rot180 =>
    have hpos : 0 < cfg.height * (cfg.width / 8) := Nat.mul_pos hrows (by omega)
    rw [Nat.mul_comm (cfg.width / 8)]
    omega
  case rot270 =>
    rw [Nat.mul_comm (cfg.height - 1 - x)]
    exact grid_index_lt (by omega) (by omega)

theorem State.drawPixel_planesOk {s : State} (h : s.Sound) (px : Pixel) :
    planeOk s.cfg (s.drawPixel px).black ∧ planeOk s.cfg (s.drawPixel px).red := by
  unfold State.drawPixel
  split
  · exact ⟨h.blackOk, h.redOk⟩
  · rename_i hin
    have hlt := transform_index_lt (Cfg.legal_geometry h.cfgLegal) (Bool.eq_false_iff.mpr hin)
    exact ⟨planeOk_store h.blackOk hlt _, planeOk_store h.redOk hlt _⟩

theorem encodeAndSend_sound {s : State} (h : s.Sound) (c : WireCmd) : (s.encodeAndSend c).state.Sound := by
  obtain ⟨hcfg, hblack, hred, hevents, hctrl⟩ := h
  rcases s.encodeAndSend_cases c with ⟨f, -, heq⟩ | ⟨evs, n, hevs, heq⟩ | ⟨e, evs, n, hevs, heq⟩ <;> rw [heq]
  · exact ⟨hcfg, hblack, hred, hevents, hctrl⟩
  · exact ⟨hcfg, hblack, hred, events_append hevents hevs, hctrl.onFrame⟩
  · exact ⟨hcfg, hblack, hred, events_append hevents hevs, Ctrl.lostUnknown_forget _⟩

/-- One more event of the kinds that no data and no opcode goes with. -/
theorem State.Sound.record {s : State} (h : s.Sound) {e : Event} (he : eventOk s.params.opc e) : (s.record e).Sound :=
  ⟨h.cfgLegal, h.blackOk, h.redOk, events_append h.events (by simpa using he), h.lostUnknown⟩

/-- Every step that belongs to a request keeps the part of the invariant that does not look at the position. -/
theorem doMicro_sound {s : State} {req : Instr} {m : Micro} (hb : m.belongs s.cfg req) (h : s.Sound) :
    (s.doMicro m).state.Sound := by
  cases m with
  | send c => exact encodeAndSend_sound h c
  | sendIf c =>
    cases c with
    | none => exact h
    | some c => exact encodeAndSend_sound h c
  | resetPulse => exact h.record (e := .resetPulse) trivial
  | delay ms => exact h.record (e := .delay ms) trivial
  | waitBusy =>
    obtain ⟨hcfg, hblack, hred, hevents, hctrl⟩ := h
    show s.emitWaitBusy.state.Sound
    cases hl : s.busyLevel s.pollCount
    · rw [State.emitWaitBusy_clear hl]
      exact ⟨hcfg, hblack, hred, events_append hevents (by simp [eventOk]), hctrl⟩
    · rw [State.emitWaitBusy_busy hl]
      exact ⟨hcfg, hblack, hred, hevents, hctrl⟩
  | fill fb fr =>
    exact ⟨h.cfgLegal, planeOk_fill h.blackOk fb, planeOk_fill h.redOk fr, h.events, h.lostUnknown⟩
  | pixel px =>
    obtain ⟨hblack, hred⟩ := State.drawPixel_planesOk h px
    show (s.drawPixel px).Sound
    rw [State.drawPixel_frame]
    exact ⟨h.cfgLegal, hblack, hred, h.events, h.lostUnknown⟩
  | writeByte p i v =>
    obtain ⟨hi, -⟩ := hb
    cases p
    · exact ⟨h.cfgLegal, planeOk_store h.blackOk hi v, h.redOk, h.events, h.lostUnknown⟩
    · exact ⟨h.cfgLegal, h.blackOk, planeOk_store h.redOk hi v, h.events, h.lostUnknown⟩
  | finishReset => exact ⟨h.cfgLegal, h.blackOk, h.redOk, h.events, Ctrl.lostUnknown_of_not_lost rfl⟩
  | finishUpdate black red => exact ⟨h.cfgLegal, h.blackOk, h.redOk, h.events, h.lostUnknown.afterUpdate black red⟩
  | finishSleep => exact ⟨h.cfgLegal, h.blackOk, h.redOk, h.events, h.lostUnknown.afterSleep⟩
  | setSeq _ | finish | finishExec | finishStatus | finishRead _ _ =>
    exact ⟨h.cfgLegal, h.blackOk, h.redOk, h.events, h.lostUnknown⟩

/-! ### The ways a request ends -/

/-- A value of `st.seq` that may stand between requests (spec/10_state.md R33). -/
def SeqState.Settled (q : SeqState) : Prop := q ≠ .initialized ∧ q ≠ .updating

/-- An IDLE block meets the invariant when the sequencer state is none of the transient ones, and ERRORED only with the
controller lost. -/
theorem State.Sound.inv_of_idle {s : State} (h : s.Sound) (hp : s.pos = .idle) (hq : s.seq.Settled)
    (he : s.seq = .errored → s.ctrl.lost = true) : s.Inv where
  cfgLegal := h.cfgLegal
  blackOk := h.blackOk
  redOk := h.redOk
  position := by simp [State.positionOk, hp]
  transient := by simpa [State.transientOk, hp, SeqState.Settled] using hq
  faultIdle := fun _ => hp
  events := h.events
  lostUnknown := h.lostUnknown
  misusedLost := by simp [hp, Pos.misused]
  erroredLost := he

section Running

variable {s t : State} {req : Instr} {mis : Bool} {k : Nat} {m : Micro}

theorem State.Inv.settled_of_idle (h : s.Inv) (hp : s.pos = .idle) : s.seq.Settled := by
  simpa [State.transientOk, hp, SeqState.Settled] using h.transient

/-- The transient values belong to an unmisused RESET or update (R33, R191). -/
theorem State.Inv.transient_running (h : s.Inv) (hp : s.pos = .running req mis k) :
    (s.seq = .initialized → req = .reset ∧ mis = false) ∧ (s.seq = .updating → isUpdate req ∧ mis = false) := by
  simpa [State.transientOk, hp] using h.transient

theorem State.Inv.position_running (h : s.Inv) (hp : s.pos = .running req mis k) :
    k < (stepsOf s req).length ∧ requestFault s req = none ∧ (mis = true → ∃ q, legalIn req q = false) := by
  simpa [State.positionOk, hp] using h.position

theorem State.Inv.fault_running (h : s.Inv) (hp : s.pos = .running req mis k) : s.fault = none := by
  by_contra hf
  have := h.faultIdle hf
  rw [hp] at this
  cases this

theorem State.Inv.settled_of_plain (h : s.Inv) (hp : s.pos = .running req mis k) (hreq : plainRequest req) :
    s.seq.Settled := by
  obtain ⟨hinit, hupd⟩ := h.transient_running hp
  exact ⟨fun hq => hreq.1 (hinit hq).1, fun hq => hreq.2 (hupd hq).1⟩

/-- A request's last write of `st.seq` leaves no transient value, also when misuse suppresses it. -/
theorem State.Inv.settled_setSeq (h : s.Inv) (hp : s.pos = .running req mis k) {q : SeqState} (hq : q.Settled) :
    (s.setSeq q).seq.Settled := by
  obtain ⟨hinit, hupd⟩ := h.transient_running hp
  rw [State.setSeq_seq, hp]
  cases mis with
  | false => exact hq
  | true => exact ⟨fun hi => Bool.noConfusion (hinit hi).2, fun hu => Bool.noConfusion (hupd hu).2⟩

/-- RESET is legal in every state, so none is misused. -/
theorem State.Inv.reset_not_misused (h : s.Inv) (hp : s.pos = .running .reset mis k) : mis = false := by
  obtain ⟨-, -, hmis⟩ := h.position_running hp
  cases mis with
  | false => rfl
  | true =>
    obtain ⟨q, hq⟩ := hmis rfl
    cases hq

theorem State.setSeq_errored {q : SeqState} (hq : q ≠ .errored) (h : (s.setSeq q).seq = .errored) :
    s.seq = .errored := by
  rw [State.setSeq_seq] at h
  split at h
  · exact h
  · exact absurd h hq

theorem Ctrl.afterUpdate_lost {c : Ctrl} (h : c.lost = true) (black red : List Byte) :
    (c.afterUpdate black red).lost = true := by
  simp [Ctrl.afterUpdate, h]

theorem Ctrl.afterSleep_lost {c : Ctrl} (h : c.lost = true) : c.afterSleep.lost = true := by
  simp [Ctrl.afterSleep, h]

/-- A command that passes its checks and ends its request has met a transport error (spec/41_sequencer.md R210). -/
theorem encodeAndSend_ended {c : WireCmd} (hc : commandFault s.params c = none) (h : s.encodeAndSend c = .ended t) :
    t.seq = .errored ∧ t.ctrl.lost = true := by
  rcases s.encodeAndSend_cases c with ⟨f, hf, -⟩ | ⟨evs, n, -, heq⟩ | ⟨e, evs, n, -, heq⟩
  · rw [hc] at hf
    cases hf
  · rw [heq] at h
    cases h
  · rw [heq] at h
    cases h
    exact ⟨rfl, rfl⟩

/-- Every step that ends its request leaves a settled sequencer state, and ERRORED only with the controller lost. -/
theorem State.Inv.ended_settled (h : s.Inv) (hp : s.pos = .running req mis k) (hm : m ∈ stepsOf s req)
    (ht : s.doMicro m = .ended t) : t.seq.Settled ∧ (t.seq = .errored → t.ctrl.lost = true) := by
  obtain ⟨-, hchk, -⟩ := h.position_running hp
  have hb := belongs_of_mem hchk m hm
  have sends : ∀ c, m.command = some c → t.seq.Settled ∧ (t.seq = .errored → t.ctrl.lost = true) := by
    intro c hc
    rw [State.doMicro_command hc] at ht
    obtain ⟨hseq, hlost⟩ := encodeAndSend_ended (commandFault_of_mem hchk hm hc) ht
    exact ⟨by simp [SeqState.Settled, hseq], fun _ => hlost⟩
  have plain : plainRequest req → s.seq.Settled ∧ (s.seq = .errored → s.ctrl.lost = true) := fun hreq =>
    ⟨h.settled_of_plain hp hreq, h.erroredLost⟩
  cases m with
  | send c => exact sends c rfl
  | sendIf c =>
    cases c with
    | none => cases ht
    | some c => exact sends c rfl
  | waitBusy => exact absurd ht (s.emitWaitBusy_ne_ended t)
  | finish =>
    cases ht
    exact plain hb.1
  | finishExec =>
    cases ht
    rcases hb with ⟨c, rfl⟩ | ⟨c, rfl⟩ <;> exact plain (by simp [plainRequest, isUpdate])
  | finishStatus =>
    cases ht
    cases hb
    exact plain (by simp [plainRequest, isUpdate])
  | finishRead p i =>
    cases ht
    obtain ⟨idx, -, rfl⟩ := hb
    exact plain (by simp [plainRequest, isUpdate])
  | finishReset =>
    cases ht
    cases hb
    have hmis := h.reset_not_misused hp
    have hseq : (s.setSeq .ready).seq = .ready := by simp [hp, hmis, Pos.misused]
    exact ⟨h.settled_setSeq hp (by simp [SeqState.Settled]), fun he => nomatch hseq.symm.trans he⟩
  | finishUpdate black red =>
    cases ht
    exact ⟨h.settled_setSeq hp (by simp [SeqState.Settled]),
      fun he => Ctrl.afterUpdate_lost (h.erroredLost (State.setSeq_errored (by decide) he)) black red⟩
  | finishSleep =>
    cases ht
    exact ⟨h.settled_setSeq hp (by simp [SeqState.Settled]),
      fun he => Ctrl.afterSleep_lost (h.erroredLost (State.setSeq_errored (by decide) he))⟩
  | resetPulse | delay _ | setSeq _ | fill _ _ | pixel _ | writeByte _ _ _ => cases ht

/-! ### A completed step -/

/-- What a completed step of a request leaves of the fault, the controller's loss and the sequencer state, which only
an unmisused RESET or update sets to a transient value. -/
theorem doMicro_go_cases (hb : m.belongs s.cfg req) (h : s.doMicro m = .go t) :
    t.fault = s.fault ∧ (s.ctrl.lost = true → t.ctrl.lost = true) ∧
      (t.seq = s.seq ∨ s.pos.misused = false ∧
        ((req = .reset ∧ t.seq = .initialized) ∨ (isUpdate req ∧ t.seq = .updating))) := by
  have sends : ∀ c, s.encodeAndSend c = .go t →
      t.fault = s.fault ∧ (s.ctrl.lost = true → t.ctrl.lost = true) ∧ t.seq = s.seq := by
    intro c hc
    rcases s.encodeAndSend_cases c with ⟨f, -, heq⟩ | ⟨evs, n, -, heq⟩ | ⟨e, evs, n, -, heq⟩ <;> rw [heq] at hc <;>
      cases hc
    exact ⟨rfl, Ctrl.onFrame_lost, rfl⟩
  cases m with
  | send c =>
    obtain ⟨hf, hl, hq⟩ := sends c h
    exact ⟨hf, hl, .inl hq⟩
  | sendIf c =>
    cases c with
    | none =>
      cases h
      exact ⟨rfl, id, .inl rfl⟩
    | some c =>
      obtain ⟨hf, hl, hq⟩ := sends c h
      exact ⟨hf, hl, .inl hq⟩
  | waitBusy =>
    have h : s.emitWaitBusy = .go t := h
    cases hz : s.busyLevel s.pollCount
    · rw [State.emitWaitBusy_clear hz] at h
      cases h
      exact ⟨rfl, id, .inl rfl⟩
    · rw [State.emitWaitBusy_busy hz] at h
      cases h
  | setSeq q =>
    cases h
    refine ⟨rfl, id, ?_⟩
    rw [State.setSeq_seq]
    cases hmis : s.pos.misused with
    | true => exact .inl rfl
    | false => exact .inr ⟨rfl, hb⟩
  | pixel px =>
    cases h
    rw [State.drawPixel_frame]
    exact ⟨rfl, id, .inl rfl⟩
  | writeByte p i v =>
    cases h
    cases p <;> exact ⟨rfl, id, .inl rfl⟩
  | resetPulse | delay _ | fill _ _ =>
    cases h
    exact ⟨rfl, id, .inl rfl⟩
  | finish | finishExec | finishReset | finishUpdate _ _ | finishSleep | finishStatus | finishRead _ _ => cases h

/-- Only a request has steps. -/
theorem isRequest_of_mem (hm : m ∈ stepsOf s req) : req.isRequest = true := by
  cases req with
  | reset | update _ _ | deepSleep | status | exec _ | execBuf _ | wait | clear _ | setPixel _ _ _ | drawPixels _
  | gfxUpdate | planeWrite _ _ _ | planeRead _ _ => rfl
  | _ => cases hm

/-- A step that completes is not the last of its list: the last one responds. -/
theorem doMicro_go_not_last (hm : (stepsOf s req)[k]? = some m) (h : s.doMicro m = .go t) :
    k + 1 < (stepsOf s req).length := by
  obtain ⟨l, f, hl, hlast⟩ := stepsOf_last (s := s) (isRequest_of_mem (List.mem_of_getElem? hm))
  obtain ⟨hk, -⟩ := List.getElem?_eq_some_iff.mp hm
  rw [hl, List.length_append, List.length_singleton] at hk ⊢
  by_contra hle
  have hkl : k = l.length := by omega
  rw [hl, hkl, List.getElem?_concat_length] at hm
  cases hm
  obtain ⟨u, hu⟩ := hlast s
  rw [hu] at h
  cases h

theorem State.Inv.nextPos_of_go (h : s.Inv) (hp : s.pos = .running req mis k) (hm : (stepsOf s req)[k]? = some m)
    (ht : s.doMicro m = .go t) : t.nextPos.Inv := by
  obtain ⟨-, hchk, hmis⟩ := h.position_running hp
  obtain ⟨hinit, hupd⟩ := h.transient_running hp
  have hb := belongs_of_mem hchk m (List.mem_of_getElem? hm)
  obtain ⟨hpos, hsteps, hchk'⟩ := doMicro_go_checked hchk hp hm ht
  obtain ⟨hfault, hlost, hseq⟩ := doMicro_go_cases hb ht
  have hsound := doMicro_sound hb h.sound
  rw [ht] at hsound
  obtain ⟨hcfg, hblack, hred, hevents, hctrl⟩ := hsound
  have hlast := doMicro_go_not_last hm ht
  have hmisused : s.pos.misused = mis := by rw [hp]; rfl
  refine ⟨hcfg, hblack, hred, ?_, ?_, ?_, hevents, hctrl, ?_, ?_⟩
  · simp only [State.positionOk, hpos, hsteps]
    exact ⟨hlast, hchk', hmis⟩
  · simp only [State.transientOk, hpos, State.nextPos_seq]
    rcases hseq with hseq | ⟨hno, ⟨rfl, hseq⟩ | ⟨hu, hseq⟩⟩ <;> rw [hseq]
    · exact ⟨hinit, hupd⟩
    · exact ⟨fun _ => ⟨rfl, hmisused.symm.trans hno⟩, nofun⟩
    · exact ⟨nofun, fun _ => ⟨hu, hmisused.symm.trans hno⟩⟩
  · intro hf
    exact absurd (hfault.trans (h.fault_running hp)) hf
  · intro hm'
    rw [hpos] at hm'
    exact hlost (h.misusedLost (hmisused.trans hm'))
  · intro he
    rcases hseq with hseq | ⟨-, ⟨-, hseq⟩ | ⟨-, hseq⟩⟩
    · exact hlost (h.erroredLost (hseq.symm.trans he))
    · exact nomatch hseq.symm.trans he
    · exact nomatch hseq.symm.trans he

theorem State.Inv.held (h : s.Inv) (hp : s.pos = .running req mis k) (ht : s.doMicro m = .held t) : t.Inv := by
  obtain ⟨hlen, hchk, hmis⟩ := h.position_running hp
  obtain ⟨hpos, hsteps, hchk'⟩ := doMicro_held_checked ht req
  have hposition : t.positionOk := by
    simp only [State.positionOk, hpos.trans hp, hsteps, hchk']
    exact ⟨hlen, hchk, hmis⟩
  obtain ⟨-, rfl⟩ := State.doMicro_held ht
  exact ⟨h.cfgLegal, h.blackOk, h.redOk, hposition, h.transient, h.faultIdle, h.events, h.lostUnknown, h.misusedLost,
    h.erroredLost⟩

end Running

/-! ### One tick, and a whole request -/

/-- One step of a request in progress keeps the invariant. -/
theorem State.Inv.tick {s : State} (h : s.Inv) : s.tick.Inv := by
  cases hp : s.pos with
  | idle => simpa [State.tick, hp] using h
  | running req mis k =>
    obtain ⟨hlen, hchk, -⟩ := h.position_running hp
    have hm := List.getElem?_eq_getElem hlen
    have hmem := List.mem_of_getElem? hm
    rw [State.tick_running hp hm]
    cases ht : s.doMicro (stepsOf s req)[k] with
    | go t => exact h.nextPos_of_go hp hm ht
    | held t => exact h.held hp ht
    | ended t =>
      have hsound := doMicro_sound (belongs_of_mem hchk _ hmem) h.sound
      rw [ht] at hsound
      obtain ⟨hq, he⟩ := h.ended_settled hp hmem ht
      exact hsound.inv_of_idle (State.doMicro_ended_pos ht) hq he

theorem State.Inv.ticks {s : State} (h : s.Inv) (n : Nat) : (State.tick^[n] s).Inv := by
  induction n generalizing s with
  | zero => exact h
  | succ n ih => exact ih h.tick

theorem State.Inv.raiseFault {s : State} (h : s.Inv) (hp : s.pos = .idle) (f : FaultRecord) : (s.raiseFault f).Inv :=
  State.Sound.inv_of_idle ⟨h.cfgLegal, h.blackOk, h.redOk, h.events, h.lostUnknown⟩ rfl (h.settled_of_idle hp)
    h.erroredLost

theorem State.Inv.withInbox {s : State} (h : s.Inv) (hp : s.pos = .idle) (inbox : List (List Byte)) :
    State.Inv { s with inbox := inbox } :=
  State.Sound.inv_of_idle ⟨h.cfgLegal, h.blackOk, h.redOk, h.events, h.lostUnknown⟩ hp (h.settled_of_idle hp)
    h.erroredLost

/-- An accepted request that passes its checks starts at the first step of its list (R31, R190), and a misused one with
the controller lost (R342). -/
theorem State.Inv.start {s : State} (h : s.Inv) (hacc : s.accepting) {i : Instr} (hreq : i.isRequest = true)
    (hchk : requestFault s i = none) : (s.start i).Inv := by
  obtain ⟨hfault, hidle⟩ := hacc
  obtain ⟨hinit, hupd⟩ := h.settled_of_idle hidle
  obtain ⟨hsteps, hchk'⟩ := stepsOf_congr (s := s) (t := s.start i) rfl rfl rfl rfl i
  obtain ⟨l, f, hl, -⟩ := stepsOf_last (s := s) hreq
  refine ⟨h.cfgLegal, h.blackOk, h.redOk, ?_, ?_, ?_, h.events, Ctrl.LostUnknown.onRequest h.lostUnknown _, ?_, ?_⟩
  · simp only [State.positionOk, State.start_pos, hsteps, hl]
    exact ⟨by simp, hchk'.trans hchk, fun hm => ⟨s.seq, by simpa using hm⟩⟩
  · simp [State.transientOk, hinit, hupd]
  · exact fun hf => absurd hfault hf
  · intro hm
    have hm : (!legalIn i s.seq) = true := hm
    simp [hm, Ctrl.forget]
  · exact fun he => Ctrl.onRequest_lost (h.erroredLost he) _

/-- An accepted request keeps the invariant, from its checks to its end or its hold. -/
theorem State.Inv.perform {s : State} (h : s.Inv) (hacc : s.accepting) {i : Instr} (hreq : i.isRequest = true) :
    (s.perform i).Inv := by
  cases hchk : requestFault s i with
  | some f =>
    rw [State.perform_of_fault hchk]
    exact h.raiseFault hacc.2 f
  | none =>
    obtain ⟨n, hticks, -⟩ := State.perform_eq_ticks hchk
    rw [← hticks]
    exact (h.start hacc hreq hchk).ticks n

/-- Settles O43: a step is a tick, an idle step, an illegal request's fault, or an accepted request. -/
theorem stepKeepsTheInvariant : Obligations.StepKeepsTheInvariant := by
  unfold Obligations.StepKeepsTheInvariant
  intro s t h hstep
  obtain ⟨hfault, ⟨req, mis, k, hp, rfl⟩ | ⟨hp, hin, rfl⟩ | ⟨bytes, later, e, hp, hin, hd, rfl⟩ |
    ⟨bytes, later, i, rest, hp, hin, hd, hreq, rfl⟩⟩ := step_next_cases hstep
  · exact h.tick
  · exact h
  · exact (h.withInbox hp later).raiseFault hp _
  · exact (h.withInbox hp (afterRequest rest later)).perform ⟨hfault, hp⟩ hreq

end Sys2Proof.Machine
end

section
/-! PROOFS. What no step takes away (spec/10_state.md R34, R40, R50), and the drawing requests' planes (R46): properties
that every step of a request keeps wherever it stands, carried through its run. -/

namespace Sys2Proof.Machine

open Sys2Proof.Claims

/-! ### A property that does not look at the position, carried through a run -/

section Runs

variable {P : State → Prop} (hpos : ∀ (u : State) (p : Pos), P u → P { u with pos := p })
include hpos

theorem Flow.settle_keeps {o : Flow} (h : P o.state) : P o.settle := by
  cases o with
  | go t =>
    rw [Flow.settle, State.nextPos_eq]
    exact hpos t _ h
  | ended t => exact h
  | held t => exact h

/-- What every step of a list keeps, the run of the list keeps. -/
theorem State.runSteps_keeps {ms : List Micro} (hm : ∀ m ∈ ms, ∀ u, P u → P (u.doMicro m).state) {s : State}
    (h : P s) : P (State.runSteps ms s) := by
  induction ms generalizing s with
  | nil => exact hpos s _ h
  | cons m ms ih =>
    have hstep := hm m (List.mem_cons_self ..) s h
    have hrest := fun m' h' => hm m' (List.mem_cons_of_mem _ h')
    cases hd : s.doMicro m with
    | go t =>
      have hsettle := Flow.settle_keeps hpos hstep
      rw [hd] at hsettle
      rw [State.runSteps_go hd]
      exact ih hrest hsettle
    | ended t =>
      rw [hd] at hstep
      rwa [State.runSteps_ended hd]
    | held t =>
      rw [hd] at hstep
      rwa [State.runSteps_held hd]

/-- What every step keeps, a single step of a request in progress keeps. -/
theorem State.tick_keeps (hm : ∀ m u, P u → P (State.doMicro m u).state) {s : State} (h : P s) : P s.tick := by
  unfold State.tick
  split
  · exact h
  · split
    · exact hpos s _ h
    · exact Flow.settle_keeps hpos (hm _ s h)

end Runs

/-! ### Nothing is taken away -/

/-- `t` comes after `s`: the same parameters and configuration, the misuse flag still set if it was, and events and
responses only added. -/
structure Extends (s t : State) : Prop where
  params : t.params = s.params
  cfg : t.cfg = s.cfg
  misuse : s.misuse = true → t.misuse = true
  trace : s.trace <+: t.trace
  responses : s.responses <+: t.responses

theorem Extends.refl (s : State) : Extends s s := ⟨rfl, rfl, id, List.prefix_rfl, List.prefix_rfl⟩

theorem Extends.trans {s t u : State} (h : Extends s t) (h' : Extends t u) : Extends s u :=
  ⟨h'.params.trans h.params, h'.cfg.trans h.cfg, h'.misuse ∘ h.misuse, h.trace.trans h'.trace,
    h.responses.trans h'.responses⟩

theorem encodeAndSend_extends (c : WireCmd) (s : State) : Extends s (s.encodeAndSend c).state := by
  rcases s.encodeAndSend_cases c with ⟨f, -, h⟩ | ⟨evs, n, -, h⟩ | ⟨e, evs, n, -, h⟩ <;> rw [h]
  · exact ⟨rfl, rfl, id, List.prefix_rfl, List.prefix_rfl⟩
  · exact ⟨rfl, rfl, id, List.prefix_append .., List.prefix_rfl⟩
  · exact ⟨rfl, rfl, id, List.prefix_append .., List.prefix_append ..⟩

theorem doMicro_extends (m : Micro) (s : State) : Extends s (s.doMicro m).state := by
  cases m with
  | send c => exact encodeAndSend_extends c s
  | sendIf c =>
    cases c with
    | none => exact Extends.refl s
    | some c => exact encodeAndSend_extends c s
  | waitBusy =>
    show Extends s s.emitWaitBusy.state
    cases hb : s.busyLevel s.pollCount
    · rw [State.emitWaitBusy_clear hb]
      exact ⟨rfl, rfl, id, List.prefix_append .., List.prefix_rfl⟩
    · rw [State.emitWaitBusy_busy hb]
      exact ⟨rfl, rfl, id, List.prefix_rfl, List.prefix_rfl⟩
  | resetPulse | delay _ => exact ⟨rfl, rfl, id, List.prefix_append .., List.prefix_rfl⟩
  | setSeq _ | fill _ _ => exact ⟨rfl, rfl, id, List.prefix_rfl, List.prefix_rfl⟩
  | pixel px =>
    show Extends s (s.drawPixel px)
    rw [State.drawPixel_frame]
    exact ⟨rfl, rfl, id, List.prefix_rfl, List.prefix_rfl⟩
  | writeByte p i v => cases p <;> exact ⟨rfl, rfl, id, List.prefix_rfl, List.prefix_rfl⟩
  | finish | finishExec | finishReset | finishUpdate _ _ | finishSleep | finishStatus | finishRead _ _ =>
    exact ⟨rfl, rfl, id, List.prefix_rfl, List.prefix_append ..⟩

theorem Extends.withPos {s : State} (t : State) (p : Pos) (h : Extends s t) : Extends s { t with pos := p } :=
  h.trans ⟨rfl, rfl, id, List.prefix_rfl, List.prefix_rfl⟩

theorem Extends.doMicro {s t : State} (m : Micro) (h : Extends s t) : Extends s (t.doMicro m).state :=
  h.trans (doMicro_extends m t)

theorem tick_extends (s : State) : Extends s s.tick :=
  State.tick_keeps Extends.withPos (fun m _ => Extends.doMicro m) (Extends.refl s)

theorem start_extends (i : Instr) (s : State) : Extends s (s.start i) :=
  ⟨rfl, rfl, fun h => by simp [h], List.prefix_rfl, List.prefix_rfl⟩

theorem perform_extends (i : Instr) (s : State) : Extends s (s.perform i) := by
  cases hchk : requestFault s i with
  | some f =>
    rw [State.perform_of_fault hchk]
    exact ⟨rfl, rfl, id, List.prefix_rfl, List.prefix_rfl⟩
  | none =>
    rw [State.perform_of_checked hchk]
    exact State.runSteps_keeps Extends.withPos (fun m _ _ => Extends.doMicro m) (start_extends i s)

theorem withInbox_extends (s : State) (inbox : List (List Byte)) : Extends s { s with inbox := inbox } :=
  ⟨rfl, rfl, id, List.prefix_rfl, List.prefix_rfl⟩

theorem step_extends {s t : State} (h : step s = .next t) : Extends s t := by
  obtain ⟨-, ⟨req, mis, k, -, rfl⟩ | ⟨-, -, rfl⟩ | ⟨bytes, later, e, -, -, -, rfl⟩ |
    ⟨bytes, later, i, rest, -, -, -, -, rfl⟩⟩ := step_next_cases h
  · exact tick_extends s
  · exact Extends.refl t
  · exact ⟨rfl, rfl, id, List.prefix_rfl, List.prefix_rfl⟩
  · exact (withInbox_extends s _).trans (perform_extends i _)

/-- Settles O44: what comes after a step extends what stood before it. -/
theorem stepsOnlyAppendAndStick : Obligations.StepsOnlyAppendAndStick := by
  unfold Obligations.StepsOnlyAppendAndStick
  intro s t h
  obtain ⟨hparams, hcfg, hmisuse, ⟨events, hevents⟩, rs, hrs⟩ := step_extends h
  exact ⟨hparams, hcfg, hmisuse, ⟨events, hevents.symm⟩, rs, hrs.symm⟩

/-! ### The open pair -/

/-- The bit of a byte that `0x80 >> k` picks. -/
theorem and_maskFromLeft_eq_zero {k : Nat} (hk : k < 8) (b : Byte) :
    b &&& maskFromLeft k = 0 ↔ b.getLsbD (7 - k) = false := by
  have hmask : maskFromLeft k = BitVec.twoPow 8 (7 - k) := by
    interval_cases k <;> rfl
  rw [hmask, BitVec.and_twoPow]
  have hne : BitVec.twoPow 8 (7 - k) ≠ 0 := by
    interval_cases k <;> decide
  split <;> simp_all

theorem openPair_iff {s : State} {i k : Nat} (hk : k < 8) : openPair s i k ↔
    (s.readByte .black i).getLsbD (7 - k) = false ∧ (s.readByte .red i).getLsbD (7 - k) = true := by
  rw [openPair, and_maskFromLeft_eq_zero hk, ne_eq, and_maskFromLeft_eq_zero hk, Bool.not_eq_false]

/-- A colour under a mask leaves a bit pair alone or sets it to one of the three colours' pairs, never to (0, 1). -/
theorem applyColor_not_open {b r : Byte} {j : Nat} (hj : j < 8)
    (h : ¬ (b.getLsbD j = false ∧ r.getLsbD j = true)) (c : Color) (m : Byte) :
    ¬ ((applyColor c m b r).1.getLsbD j = false ∧ (applyColor c m b r).2.getLsbD j = true) := by
  cases c <;> simp only [applyColor, BitVec.getLsbD_and, BitVec.getLsbD_or, BitVec.getLsbD_not, hj, decide_true,
    Bool.true_and] <;> cases m.getLsbD j <;> simp_all

theorem drawPixel_not_openPair {s : State} {i k : Nat} (hk : k < 8) (h : ¬ openPair s i k) (px : Pixel) :
    ¬ openPair (s.drawPixel px) i k := by
  unfold State.drawPixel
  split
  · exact h
  · rw [openPair_iff hk] at h ⊢
    rw [State.readByte_applyAt, State.readByte_applyAt]
    split
    · subst i
      exact applyColor_not_open (by omega) h _ _
    · exact h

/-- A run of pixels makes no open pair. -/
theorem runSteps_pixels_not_openPair (pxs : List Pixel) {s : State} {i k : Nat} (hk : k < 8) (h : ¬ openPair s i k) :
    ¬ openPair (State.runSteps (drawPixelsSteps pxs) s) i k := by
  refine State.runSteps_keeps (P := fun u => ¬ openPair u i k) (fun _ _ hu => hu) ?_ h
  intro m hm u hu
  simp only [drawPixelsSteps, List.mem_append, List.mem_map, List.mem_singleton] at hm
  obtain ⟨px, -, rfl⟩ | rfl := hm
  · exact drawPixel_not_openPair hk hu px
  · exact hu

/-- CLEAR fills both planes with one colour's bytes, and no colour is the pair (0, 1). -/
theorem fillPlanes_not_openPair (c : Color) {s : State} {i k : Nat} (hi : i < s.cfg.planeLen) (hk : k < 8) :
    ¬ openPair (s.fillPlanes (fillPattern c).1 (fillPattern c).2) i k := by
  rw [openPair_iff hk, State.readByte_fillPlanes, State.readByte_fillPlanes, if_pos hi, if_pos hi]
  cases c <;> interval_cases k <;> decide

theorem setPixel_checked (s : State) (x y : Coord) (c : Color) : requestFault s (.setPixel x y c) = none := rfl

theorem clear_checked (s : State) (c : Color) : requestFault s (.clear c) = none := rfl

theorem drawPixels_checked (s : State) (pxs : List Pixel) : requestFault s (.drawPixels pxs) = none := by
  simp [requestFault, ownFault, stepsOf, drawPixelsSteps, stepRangeFault, Micro.command]

/-- Settles O37: CLEAR writes a colour's pair everywhere, and a pixel's colour goes under any mask without (0, 1). -/
theorem drawingNeverMakesTheOpenPair : Obligations.DrawingNeverMakesTheOpenPair := by
  unfold Obligations.DrawingNeverMakesTheOpenPair
  intro s t i k _ hi hk
  constructor
  · rintro ⟨c, hexec⟩
    obtain ⟨-, rfl⟩ := runRequest_next hexec
    rw [State.perform_of_checked (clear_checked s c)]
    exact fillPlanes_not_openPair c (s := s) hi hk
  · rintro h (⟨x, y, c, hexec⟩ | ⟨pxs, hexec⟩) <;> obtain ⟨-, rfl⟩ := runRequest_next hexec
    · rw [State.perform_of_checked (setPixel_checked s x y c)]
      exact runSteps_pixels_not_openPair [⟨x, y, c⟩] hk h
    · rw [State.perform_of_checked (drawPixels_checked s pxs)]
      exact runSteps_pixels_not_openPair pxs hk h

end Sys2Proof.Machine
end

section
/-! PROOFS. A built configuration (spec/43_configuration.md R270, R275), and the observation of a trace that a transport
sends in chunks (spec/10_state.md R50). -/

namespace Sys2Proof.Machine

/-! ### Build -/

/-- The dimensions gathered so far are the ones the configuration holds. -/
def Draft.DimsHeld (d : Draft) : Prop :=
  ∀ rows cols, d.dims = some (rows, cols) → d.cfg.rows = rows ∧ d.cfg.cols = cols

theorem Draft.DimsHeld.add {d : Draft} (h : d.DimsHeld) (o : BuildOption) : (d.add o).DimsHeld := by
  cases o with
  | dimensions rows cols =>
    rintro _ _ ⟨⟩
    exact ⟨rfl, rfl⟩
  | rotation _ | dummyLinePeriod _ | gateLineWidth _ | vcom _ | lut _ | dataEntryMode _ _ => exact h

theorem Draft.DimsHeld.foldl (options : List BuildOption) {d : Draft} (h : d.DimsHeld) :
    (options.foldl Draft.add d).DimsHeld := by
  induction options generalizing d with
  | nil => exact h
  | cons o options ih => exact ih (h.add o)

/-- What a build gives has passed the three checks of R271. -/
theorem build_legal {p : Params} {options : List BuildOption} {cfg : Cfg} (h : build p options = .built cfg) :
    Cfg.legal p cfg = true := by
  have hheld : (options.foldl Draft.add Draft.empty).DimsHeld := Draft.DimsHeld.foldl options nofun
  simp only [build] at h
  generalize options.foldl Draft.add Draft.empty = d at h hheld
  split at h
  · cases h
  rename_i rows cols hdims
  obtain ⟨rfl, rfl⟩ := hheld rows cols hdims
  split at h
  · cases h
  split at h
  · cases h
  split at h
  · cases h
  cases h
  simp_all [Cfg.legal]

/-- The block right after power-on meets the invariant when its configuration is legal (R330). -/
theorem powerOn_inv {p : Params} {cfg : Cfg} (h : Cfg.legal p cfg = true) : (State.powerOn p cfg).Inv := by
  have hsound : (State.powerOn p cfg).Sound :=
    ⟨h, ⟨rfl, rfl⟩, ⟨rfl, rfl⟩, nofun, Ctrl.lostUnknown_of_not_lost rfl⟩
  exact hsound.inv_of_idle rfl ⟨nofun, nofun⟩ nofun

/-- Settles O40: the build's own checks are `Cfg.legal`, and power-on has nothing else to establish. -/
theorem builtBlocksMeetTheInvariant : Obligations.BuiltBlocksMeetTheInvariant := by
  unfold Obligations.BuiltBlocksMeetTheInvariant
  intro p options cfg h
  exact ⟨build_legal h, powerOn_inv (build_legal h)⟩

/-! ### Joining DATA events -/

/-- Joining a trace looks at what follows an event only when that is joined itself. -/
theorem joinData_cons_congr (e : Event) {es es' : List Event} (h : joinData es = joinData es') :
    joinData (e :: es) = joinData (e :: es') := by
  simp only [joinData, h]

theorem joinData_append_congr (before : List Event) {es es' : List Event} (h : joinData es = joinData es') :
    joinData (before ++ es) = joinData (before ++ es') := by
  induction before with
  | nil => exact h
  | cons e before ih => exact joinData_cons_congr e ih

theorem joinData_data_of {es r : List Event} {b : List Byte} (h : joinData es = .data b :: r) (a : List Byte) :
    joinData (.data a :: es) = .data (a ++ b) :: r := by
  simp [joinData, h]

/-- A joined trace that begins with a DATA event begins with those bytes, and what follows them does not depend on
them. -/
theorem joinData_data (es : List Event) : ∃ b r, ∀ a, joinData (.data a :: es) = .data (a ++ b) :: r := by
  rcases h : joinData es with _ | ⟨e, r⟩
  · exact ⟨[], [], fun a => by simp [joinData, h]⟩
  · cases e with
    | data b => exact ⟨b, r, joinData_data_of h⟩
    | cmd _ | resetPulse | waitBusy | delay _ | cmdFailed _ _ | dataFailed _ _ =>
      exact ⟨[], _, fun a => by simp only [joinData, h, List.append_nil]; rfl⟩

/-- Two consecutive DATA events are joined as one. -/
theorem joinData_data_data (a b : List Byte) (es : List Event) :
    joinData (.data a :: .data b :: es) = joinData (.data (a ++ b) :: es) := by
  obtain ⟨c, r, hr⟩ := joinData_data es
  rw [joinData_data_of (hr b), hr (a ++ b), List.append_assoc]

/-- The pieces of a DATA event are joined as the event. -/
theorem joinData_pieces {pieces : List (List Byte)} (hne : pieces ≠ []) (later : List Event) :
    joinData (pieces.map .data ++ later) = joinData (.data pieces.flatten :: later) := by
  induction pieces with
  | nil => exact absurd rfl hne
  | cons a rest ih =>
    cases rest with
    | nil => simp
    | cons b rest =>
      calc joinData (.data a :: ((b :: rest).map .data ++ later))
          = joinData (.data a :: .data (b :: rest).flatten :: later) := joinData_cons_congr _ (ih (by simp))
        _ = joinData (.data (a ++ (b :: rest).flatten) :: later) := joinData_data_data ..

theorem chunks_ne_nil (n fuel : Nat) (bs : List Byte) : chunks n fuel bs ≠ [] := by
  cases fuel with
  | zero => simp [chunks]
  | succ fuel =>
    simp only [chunks]
    split <;> simp

theorem chunks_flatten (n fuel : Nat) (bs : List Byte) : (chunks n fuel bs).flatten = bs := by
  induction fuel generalizing bs with
  | zero => simp [chunks]
  | succ fuel ih =>
    simp only [chunks]
    split
    · simp
    · simp [ih]

/-- An event and what the transport makes of it are joined alike. -/
theorem joinData_chunked (n : Nat) (e : Event) (later : List Event) :
    joinData (e.chunked n ++ later) = joinData (e :: later) := by
  cases e with
  | data bs =>
    rw [Event.chunked, joinData_pieces (chunks_ne_nil n _ bs), chunks_flatten]
  | cmd _ | resetPulse | waitBusy | delay _ | cmdFailed _ _ | dataFailed _ _ => rfl

theorem joinData_flatMap_chunked (n : Nat) (trace : List Event) :
    joinData (trace.flatMap (Event.chunked n)) = joinData trace := by
  induction trace with
  | nil => rfl
  | cons e trace ih =>
    rw [List.flatMap_cons, joinData_chunked]
    exact joinData_cons_congr e ih

/-- Settles O55: pieces are joined pairwise from the right, and the transport's chunks are pieces. -/
theorem observationIgnoresChunking : Obligations.ObservationIgnoresChunking := by
  unfold Obligations.ObservationIgnoresChunking
  refine ⟨fun before later pieces hne => ?_, fun s => joinData_flatMap_chunked _ s.trace⟩
  rw [List.append_assoc]
  exact joinData_append_congr before (joinData_pieces hne later)

end Sys2Proof.Machine
end

section
/-! PROOFS. The rotation (spec/10_state.md R36, spec/20_memory.md R74): only a pixel step reads it. Every other step
commutes with `rotated`, and a pixel step changes the planes alone, which no event, response or position shows. -/

namespace Sys2Proof.Claims

open Sys2Proof.Machine

/-! ### What the host and the wire see of a state -/

/-- `t` shows the trace, the responses and the position of `s`. -/
structure SameWire (s t : State) : Prop where
  trace : t.trace = s.trace
  responses : t.responses = s.responses
  pos : t.pos = s.pos

theorem SameWire.rotated (r : Rotation) (s : State) : SameWire s (rotated r s) := ⟨rfl, rfl, rfl⟩

theorem SameWire.nextPos {s t : State} (h : SameWire s t) : SameWire s.nextPos t.nextPos :=
  ⟨h.trace, h.responses, by rw [State.nextPos_eq, State.nextPos_eq, h.pos]⟩

theorem SameWire.drawPixel {s t : State} (h : SameWire s t) (px : Pixel) :
    SameWire (s.drawPixel px) (t.drawPixel px) := by
  rw [s.drawPixel_frame, t.drawPixel_frame]
  exact ⟨h.trace, h.responses, h.pos⟩

theorem SameWire.start {s t : State} (h : SameWire s t) (hseq : t.seq = s.seq) (i : Instr) :
    SameWire (s.start i) (t.start i) :=
  ⟨h.trace, h.responses, by rw [State.start_pos, State.start_pos, hseq]⟩

theorem SameWire.finish {s t : State} (h : SameWire s t) (answer : Response) :
    SameWire (s.finish answer) (t.finish answer) :=
  ⟨h.trace, by simp only [State.finish, h.responses], rfl⟩

/-- Two runs of the same pixels end with the same response. -/
theorem SameWire.runSteps_pixels (pxs : List Pixel) {s t : State} (h : SameWire s t) :
    SameWire (State.runSteps (drawPixelsSteps pxs) s) (State.runSteps (drawPixelsSteps pxs) t) := by
  induction pxs generalizing s t with
  | nil => exact h.finish .ok
  | cons px pxs ih => exact ih (h.drawPixel px).nextPos

variable (r : Rotation) (s : State)

/-! ### The checks and the step list do not read the rotation -/

@[simp] theorem rotated_fault : (rotated r s).fault = s.fault := rfl
@[simp] theorem rotated_pos : (rotated r s).pos = s.pos := rfl
@[simp] theorem rotated_params : (rotated r s).params = s.params := rfl
@[simp] theorem rotated_inbox : (rotated r s).inbox = s.inbox := rfl

@[simp] theorem planeBytes_rotated (p : Plane) : (rotated r s).planeBytes p = s.planeBytes p :=
  State.planeBytesFrom_congr (s := rotated r s) (t := s) p rfl 0 _

@[simp] theorem stepsOf_rotated (i : Instr) : stepsOf (rotated r s) i = stepsOf s i := by
  cases i with
  | gfxUpdate => simp only [stepsOf, planeBytes_rotated, rotated_params]
  | _ => rfl

@[simp] theorem ownFault_rotated (i : Instr) : ownFault (rotated r s) i = ownFault s i := rfl

@[simp] theorem requestFault_rotated (i : Instr) : requestFault (rotated r s) i = requestFault s i := by
  simp [requestFault]

/-! ### The sends and the busy-wait -/

theorem send_rotated (sent : Event) (failed : TransportError → Event) :
    (rotated r s).send sent failed = mapFlow (rotated r) (s.send sent failed) := by
  have draw : (rotated r s).sendResult (rotated r s).sendCount = s.sendResult s.sendCount := rfl
  cases h : s.sendResult s.sendCount with
  | none => rw [State.send_ok _ _ h, State.send_ok _ _ (draw.trans h)]; rfl
  | some e => rw [State.send_err _ _ h, State.send_err _ _ (draw.trans h)]; rfl

theorem emitData_rotated (bs : List Byte) :
    (rotated r s).emitData bs = mapFlow (rotated r) (s.emitData bs) := by
  unfold State.emitData
  split
  · rfl
  · exact send_rotated r s _ _

theorem emitWaitBusy_rotated : (rotated r s).emitWaitBusy = mapFlow (rotated r) s.emitWaitBusy := by
  have level : (rotated r s).busyLevel (rotated r s).pollCount = s.busyLevel s.pollCount := rfl
  cases h : s.busyLevel s.pollCount with
  | false => rw [State.emitWaitBusy_clear h, State.emitWaitBusy_clear (level.trans h)]; rfl
  | true => rw [State.emitWaitBusy_busy h, State.emitWaitBusy_busy (level.trans h)]; rfl

theorem sendFrame_rotated (c : WireCmd) : (rotated r s).sendFrame c = mapFlow (rotated r) (s.sendFrame c) := by
  have cmd : (rotated r s).emitCmd (c.op s.params) = mapFlow (rotated r) (s.emitCmd (c.op s.params)) :=
    send_rotated r s _ _
  have data (t : State) : (rotated r t).emitData (c.data (rotated r t).params)
      = mapFlow (rotated r) (t.emitData (c.data t.params)) := emitData_rotated r t _
  unfold State.sendFrame
  rw [rotated_params, cmd, mapFlow_andThen data, mapFlow_andThen fun _ => rfl]

theorem encodeAndSend_rotated (c : WireCmd) :
    (rotated r s).encodeAndSend c = mapFlow (rotated r) (s.encodeAndSend c) := by
  cases h : commandFault s.params c with
  | some f => rw [State.encodeAndSend_fault h, State.encodeAndSend_fault (s := rotated r s) h]; rfl
  | none => rw [State.encodeAndSend_send h, State.encodeAndSend_send (s := rotated r s) h, sendFrame_rotated]

/-! ### One step, and a run -/

/-- Every step but a pixel commutes with `rotated`. -/
theorem doMicro_rotated {m : Micro} (hm : ∀ px, m ≠ .pixel px) :
    (rotated r s).doMicro m = mapFlow (rotated r) (s.doMicro m) := by
  cases m with
  | send c => exact encodeAndSend_rotated r s c
  | sendIf c =>
    cases c with
    | none => rfl
    | some c => exact encodeAndSend_rotated r s c
  | waitBusy => exact emitWaitBusy_rotated r s
  | pixel px => exact absurd rfl (hm px)
  | writeByte p i v => cases p <;> rfl
  | _ => rfl

theorem settle_mapFlow_rotated (o : Flow) : (mapFlow (rotated r) o).settle = rotated r o.settle := by
  cases o <;> rfl

/-- The single step of a request in progress, at any position, looks the same under every rotation. -/
theorem tick_rotated_sameWire : SameWire s.tick (rotated r s).tick := by
  simp only [State.tick, rotated_pos, stepsOf_rotated]
  split
  · exact SameWire.rotated r s
  · split
    · exact ⟨rfl, rfl, rfl⟩
    · rename_i m _
      by_cases hpx : ∃ px, m = .pixel px
      · obtain ⟨px, rfl⟩ := hpx
        exact ((SameWire.rotated r s).drawPixel px).nextPos
      · rw [doMicro_rotated r s (not_exists.mp hpx), settle_mapFlow_rotated]
        exact SameWire.rotated r _

/-- A run without a pixel commutes with `rotated`. -/
theorem runSteps_rotated {ms : List Micro} (hms : ∀ m ∈ ms, ∀ px, m ≠ .pixel px) :
    State.runSteps ms (rotated r s) = rotated r (State.runSteps ms s) := by
  induction ms generalizing s with
  | nil => rfl
  | cons m ms ih =>
    have hm := doMicro_rotated r s (hms m (List.mem_cons_self ..))
    have hrest := fun m' h' => hms m' (List.mem_cons_of_mem _ h')
    cases h : s.doMicro m with
    | go t => rw [h] at hm; rw [State.runSteps_go h, State.runSteps_go hm, ← ih _ hrest]; rfl
    | ended t => rw [h] at hm; rw [State.runSteps_ended h, State.runSteps_ended hm]
    | held t => rw [h] at hm; rw [State.runSteps_held h, State.runSteps_held hm]

/-! ### Requests and wire commands -/

/-- A request other than SET_PIXEL and DRAW_PIXELS commutes with `rotated`: its list has no pixel step. -/
theorem perform_rotated {i : Instr} (hset : ∀ x y c, i ≠ .setPixel x y c) (hdraw : ∀ pxs, i ≠ .drawPixels pxs) :
    (rotated r s).perform i = rotated r (s.perform i) := by
  cases hchk : requestFault s i with
  | some f =>
    rw [State.perform_of_fault hchk, State.perform_of_fault ((requestFault_rotated r s i).trans hchk)]
    rfl
  | none =>
    have hnone : ∀ m ∈ stepsOf s i, ∀ px, m ≠ .pixel px := by
      rintro _ hm px rfl
      rcases belongs_of_mem hchk _ hm with ⟨x, y, c, hi⟩ | ⟨pxs, hi⟩
      · exact hset x y c hi
      · exact hdraw pxs hi
    rw [State.perform_of_checked hchk, State.perform_of_checked ((requestFault_rotated r s i).trans hchk),
      stepsOf_rotated]
    exact runSteps_rotated r (s.start i) hnone

theorem perform_rotated_sameWire (i : Instr) : SameWire (s.perform i) ((rotated r s).perform i) := by
  have hstart := (SameWire.rotated r s).start rfl i
  by_cases hset : ∃ x y c, i = .setPixel x y c
  · obtain ⟨x, y, c, rfl⟩ := hset
    rw [State.perform_of_checked (setPixel_checked s x y c), State.perform_of_checked (setPixel_checked _ x y c)]
    exact hstart.runSteps_pixels [⟨x, y, c⟩]
  by_cases hdraw : ∃ pxs, i = .drawPixels pxs
  · obtain ⟨pxs, rfl⟩ := hdraw
    rw [State.perform_of_checked (drawPixels_checked s pxs), State.perform_of_checked (drawPixels_checked _ pxs)]
    exact hstart.runSteps_pixels pxs
  rw [perform_rotated r s (by simpa using hset) (by simpa using hdraw)]
  exact SameWire.rotated r _

theorem runWire_rotated (c : WireCmd) : runWire c (rotated r s) = mapNext (rotated r) (runWire c s) := by
  simp only [runWire, rotated_fault, encodeAndSend_rotated, mapFlow_state]
  split <;> rfl

/-- The meaning of an instruction is that of the host request it is, or of a wire command. -/
theorem exec_eq_runRequest_or_runWire (i : Instr) : exec i = runRequest i ∨ ∃ c, exec i = runWire c := by
  cases i with
  | reset | update _ _ | deepSleep | status | exec _ | execBuf _ | wait | clear _ | setPixel _ _ _ | drawPixels _
  | gfxUpdate | planeWrite _ _ _ | planeRead _ _ => exact .inl rfl
  | _ => exact .inr ⟨_, rfl⟩

variable {s} {t : State}

/-- Under another rotation an instruction answers a state that looks the same, and is the same unless the instruction
draws pixels. -/
theorem exec_rotated {i : Instr} (h : exec i s = .next t) :
    ∃ t', exec i (rotated r s) = .next t' ∧ SameWire t t' ∧
      ((∀ x y c, i ≠ .setPixel x y c) → (∀ pxs, i ≠ .drawPixels pxs) → t' = rotated r t) := by
  rcases exec_eq_runRequest_or_runWire i with hi | ⟨c, hi⟩ <;> rw [hi] at h ⊢
  · obtain ⟨hacc, rfl⟩ := runRequest_next h
    exact ⟨_, runRequest_accepting (s := rotated r s) hacc i, perform_rotated_sameWire r s i, perform_rotated r s⟩
  · exact ⟨rotated r t, by rw [runWire_rotated, h]; rfl, SameWire.rotated r t, fun _ _ => rfl⟩

theorem fetch_rotated (s : State) : (rotated r s).fetch = mapFetched (rotated r) s.fetch := by
  simp only [State.fetch, rotated_inbox, rotated_params]
  split
  · rfl
  · split <;> rfl

theorem step_rotated (h : step s = .next t) : ∃ t', step (rotated r s) = .next t' ∧ SameWire t t' := by
  simp only [step, rotated_fault, rotated_pos, fetch_rotated] at h ⊢
  split at h
  · cases h
  split at h
  · cases h
    exact ⟨_, rfl, tick_rotated_sameWire r s⟩
  cases hf : s.fetch with
  | nothing =>
    rw [hf] at h
    cases h
    exact ⟨_, rfl, SameWire.rotated r s⟩
  | illegal u =>
    rw [hf] at h
    cases h
    exact ⟨_, rfl, SameWire.rotated r _⟩
  | request i u =>
    rw [hf] at h
    obtain ⟨t', hexec, hwire, -⟩ := exec_rotated r h
    exact ⟨t', hexec, hwire⟩

/-- Settles O53: only pixel steps read the rotation, and they change the planes alone. -/
theorem rotationNeverChangesTheWire : Obligations.RotationNeverChangesTheWire := by
  unfold Obligations.RotationNeverChangesTheWire
  intro s t r
  refine ⟨fun i h => ?_, fun h => ?_⟩
  · obtain ⟨t', hexec, hwire, heq⟩ := exec_rotated r h
    exact ⟨t', hexec, hwire.trace, hwire.responses, heq⟩
  · obtain ⟨t', hstep, hwire⟩ := step_rotated r h
    exact ⟨t', hstep, hwire.trace, hwire.responses, hwire.pos⟩

end Sys2Proof.Claims
end

section
/-! PROOFS. The encodings (spec/30_encoding.md): the round trips of requests and of wire frames, the decoder's answers
read backwards, and the byte strings it rejects. -/

namespace Sys2Proof

open Sys2Proof.Machine Sys2Proof.Claims

/-! ### What well-formed parameters give -/

theorem paramsOk_opcodes {p : Params} (h : paramsOk p = true) : p.opc.distinct = true := by
  simp only [paramsOk, Bool.and_eq_true] at h
  exact h.1.1

theorem paramsOk_sleepCodes {p : Params} (h : paramsOk p = true) : p.sleepCode.distinct = true := by
  simp only [paramsOk, Bool.and_eq_true] at h
  exact h.1.2

theorem fitsLength_iff {α : Type} (l : List α) : fitsLength l = true ↔ l.length < 65536 := by
  simp [fitsLength]

/-! ### Decoding an encoding -/

theorem decode_code (p : Params) (k : ReqKind) (l : List Byte) : decode p (k.code :: l) = takeRequest p k l := by
  simp only [decode, ReqKind.ofCode_code]

theorem take16_bytes16 (v : Half) (r : List Byte) : take16 (bytes16 v ++ r) = .ok (v, r) := by
  simp [take16, bytes16]

theorem takeExec_frame {p : Params} (h : paramsOk p = true) (c : Command) (r : List Byte) :
    takeExec p ((WireCmd.fixed c).frame p ++ r) = .ok (c, r) := by
  simp only [WireCmd.frame, WireCmd.op, WireCmd.kind, WireCmd.data, List.cons_append, takeExec,
    Opc.kindOf_byte (paramsOk_opcodes h), takeCommand_data (paramsOk_sleepCodes h)]

/-- Whether a row is a buffer row does not depend on the buffer. -/
theorem bufCommandOf_isSome (c : BufCommand) (b : List Byte) : ∃ c', bufCommandOf c.kind b = some c' := by
  cases c <;> exact ⟨_, rfl⟩

theorem takeExecBuf_bytes {p : Params} (h : paramsOk p = true) (c : BufCommand) (hlen : c.buf.length < 65536)
    (r : List Byte) : takeExecBuf p (p.opc.byte c.kind :: (bufferBytes c.buf ++ r)) = .ok (c, r) := by
  obtain ⟨c', hc'⟩ := bufCommandOf_isSome c []
  simp only [takeExecBuf, Opc.kindOf_byte (paramsOk_opcodes h), hc', takeBuffer_bufferBytes hlen, bufCommandOf_kind]

/-- Settles O1: the operands of each request are read back field by field. -/
theorem requestRoundTrip : Obligations.RequestRoundTrip := by
  unfold Obligations.RequestRoundTrip
  intro p i rest hp hreq hwf
  cases i <;> simp only [Instr.isRequest, Bool.false_eq_true] at hreq <;>
    simp only [encode, List.cons_append, List.append_assoc, decode_code, takeRequest]
  case update black red =>
    simp only [Instr.wellFormed, Bool.and_eq_true, fitsLength_iff] at hwf
    obtain ⟨hblack, hred⟩ := hwf
    simp only [takeBuffer_bufferBytes hblack, takeBuffer_bufferBytes hred]
  case exec c => simp only [takeExec_frame hp]
  case execBuf c =>
    simp only [Instr.wellFormed, fitsLength_iff] at hwf
    simp only [takeExecBuf_bytes hp c hwf]
  case clear c => simp only [take8, colorOf_code, List.nil_append]
  case setPixel x y c => simp only [takePixel_bytes]
  case drawPixels pxs =>
    simp only [Instr.wellFormed, fitsLength_iff] at hwf
    have hn : (BitVec.ofNat 16 pxs.length).toNat = pxs.length := by
      rw [BitVec.toNat_ofNat, Nat.mod_eq_of_lt hwf]
    simp only [take16_bytes16, hn, takePixels_bytes]
  case planeWrite pl idx v => simp [bytes16]
  case planeRead pl idx => simp [bytes16]
  all_goals rfl

/-- Settles O2: the opcode gives the row, and the row tells a buffer command from a command with fixed data bytes. -/
theorem frameRoundTrip : Obligations.FrameRoundTrip := by
  unfold Obligations.FrameRoundTrip
  intro p c hp
  have hop := Opc.kindOf_byte (paramsOk_opcodes hp)
  cases c with
  | buffer c => simp only [decodeFrame, WireCmd.op, WireCmd.kind, WireCmd.data, hop, bufCommandOf_kind]
  | fixed c =>
    have hdata := takeCommand_data (paramsOk_sleepCodes hp) c []
    rw [List.append_nil] at hdata
    simp only [decodeFrame, WireCmd.op, WireCmd.kind, WireCmd.data, hop, bufCommandOf_command, hdata]

/-! ### The decoder's answers read backwards -/

theorem take16_inv {l r : List Byte} {v : Half} (h : take16 l = .ok (v, r)) : bytes16 v ++ r = l := by
  unfold take16 at h
  split at h
  · cases h
    simp [bytes16]
  · cases h

theorem takeExec_inv {p : Params} {l r : List Byte} {c : Command} (h : takeExec p l = .ok (c, r)) :
    (WireCmd.fixed c).frame p ++ r = l := by
  unfold takeExec at h
  split at h
  · cases h
  split at h
  · cases h
  rename_i op l k hk
  obtain ⟨rfl, rfl⟩ := takeCommand_inv h
  rw [← Opc.byte_of_kindOf hk]
  rfl

theorem takeExecBuf_inv {p : Params} {l r : List Byte} {c : BufCommand} (h : takeExecBuf p l = .ok (c, r)) :
    c.buf.length < 65536 ∧ p.opc.byte c.kind :: (bufferBytes c.buf ++ r) = l := by
  unfold takeExecBuf at h
  split at h
  · cases h
  split at h
  · cases h
  rename_i k hk
  split at h
  · cases h
  split at h
  · cases h
  rename_i buf r₁ hbuf
  split at h
  · cases h
  rename_i c₁ hc
  cases h
  obtain ⟨rfl, rfl⟩ := bufCommandOf_inv hc
  obtain ⟨hlen, hl⟩ := takeBuffer_inv hbuf
  exact ⟨hlen, by rw [hl, Opc.byte_of_kindOf hk]⟩

/-- What a request kind's operands decode to is well-formed, and its encoding is the kind's code and those operands. -/
theorem takeRequest_inv {p : Params} {k : ReqKind} {l r : List Byte} {i : Instr}
    (h : takeRequest p k l = .ok (i, r)) : i.wellFormed = true ∧ encode p i ++ r = k.code :: l := by
  cases k <;> simp only [takeRequest] at h
  case update =>
    split at h
    · cases h
    rename_i black r₁ hblack
    split at h
    · cases h
    rename_i red r₂ hred
    cases h
    obtain ⟨hb, rfl⟩ := takeBuffer_inv hblack
    obtain ⟨hr, rfl⟩ := takeBuffer_inv hred
    exact ⟨by simp [Instr.wellFormed, fitsLength_iff, hb, hr], by simp [encode]⟩
  case exec =>
    split at h
    · cases h
    rename_i c r₁ hc
    cases h
    exact ⟨rfl, congrArg (ReqKind.exec.code :: ·) (takeExec_inv hc)⟩
  case execBuf =>
    split at h
    · cases h
    rename_i c r₁ hc
    cases h
    obtain ⟨hlen, rfl⟩ := takeExecBuf_inv hc
    exact ⟨(fitsLength_iff _).mpr hlen, rfl⟩
  case clear =>
    unfold take8 at h
    split at h
    · cases h
    rename_i b r₁ hb
    split at h
    · cases h
    rename_i c hc
    cases h
    split at hb <;> cases hb
    exact ⟨rfl, by simp [encode, code_of_colorOf hc]⟩
  case setPixel =>
    split at h
    · cases h
    rename_i px r₁ hpx
    cases h
    exact ⟨rfl, congrArg (ReqKind.setPixel.code :: ·) (takePixel_inv hpx)⟩
  case drawPixels =>
    split at h
    · cases h
    rename_i n r₁ hn
    split at h
    · cases h
    rename_i pxs r₂ hpxs
    cases h
    obtain ⟨hlen, rfl⟩ := takePixels_inv hpxs
    have hlt := n.isLt
    have hcount : BitVec.ofNat 16 pxs.length = n := by rw [hlen, BitVec.ofNat_toNat, BitVec.setWidth_eq]
    exact ⟨(fitsLength_iff pxs).mpr (by omega), by simp [encode, hcount, take16_inv hn]⟩
  case planeWrite =>
    split at h
    · split at h
      · cases h
      rename_i pl hpl
      cases h
      exact ⟨rfl, by simp [encode, bytes16, code_of_planeOf hpl]⟩
    · cases h
  case planeRead =>
    split at h
    · split at h
      · cases h
      rename_i pl hpl
      cases h
      exact ⟨rfl, by simp [encode, bytes16, code_of_planeOf hpl]⟩
    · cases h
  case reset | deepSleep | status | wait | gfxUpdate =>
    cases h
    exact ⟨rfl, rfl⟩

theorem decode_inv {p : Params} {bytes rest : List Byte} {i : Instr} (h : decode p bytes = .ok (i, rest)) :
    i.isRequest = true ∧ i.wellFormed = true ∧ encode p i ++ rest = bytes := by
  refine ⟨decode_isRequest h, ?_⟩
  unfold decode at h
  split at h
  · cases h
  split at h
  · cases h
  rename_i k hk
  rw [← ReqKind.code_of_ofCode hk]
  exact takeRequest_inv h

/-- Settles O3: the code gives the kind, and each kind's operands are read backwards. -/
theorem decodedBytesAreTheEncoding : Obligations.DecodedBytesAreTheEncoding := by
  unfold Obligations.DecodedBytesAreTheEncoding
  exact fun _ _ _ _ => decode_inv

/-- Settles O4: the decoder, evaluated on the eight byte strings. -/
theorem vectorWordsDecode : Obligations.VectorWordsDecode := by
  unfold Obligations.VectorWordsDecode
  exact ⟨rfl, rfl, rfl, rfl, rfl, rfl, rfl, rfl⟩

end Sys2Proof
end

section
/-! PROOFS. Illegal byte strings (spec/30_encoding.md R111, R113, R122): the decoder rejects each form, and the step of
an idle block answers a rejected byte string with ILLEGAL_REQUEST. -/

namespace Sys2Proof

open Sys2Proof.Machine Sys2Proof.Claims

/-! ### Codes outside their tables -/

theorem ReqKind.ofCode_unknown {b : Byte} (h : ∀ k : ReqKind, k.code ≠ b) : ReqKind.ofCode b = none := by
  cases hb : ReqKind.ofCode b with
  | none => rfl
  | some k => exact absurd (ReqKind.code_of_ofCode hb) (h k)

theorem colorOf_unknown {b : Byte} (h0 : b ≠ 0) (h1 : b ≠ 1) (h2 : b ≠ 2) : colorOf b = .error .badColor := by
  rw [colorOf, if_neg h0, if_neg h1, if_neg h2]

theorem planeOf_unknown {b : Byte} (h0 : b ≠ 0) (h1 : b ≠ 1) : planeOf b = .error .badPlane := by
  rw [planeOf, if_neg h0, if_neg h1]

theorem SleepCode.modeOf_unknown {c : SleepCode} {b : Byte} (h0 : b ≠ c.normal) (h1 : b ≠ c.preserveRam)
    (h2 : b ≠ c.discardRam) : c.modeOf b = none := by
  rw [SleepCode.modeOf, if_neg h0, if_neg h1, if_neg h2]

theorem entryOf_unknown {b : Byte} (h : 8 ≤ b.toNat) : entryOf b = none := by
  rw [entryOf, if_neg (Nat.not_lt.mpr h)]

/-! ### Operands the decoder rejects -/

/-- The decoder rejects a byte string, for one reason or another. -/
def Rejected (p : Params) (bytes : List Byte) : Prop := ∃ e, decode p bytes = .error e

/-- A byte string that decodes to no request is rejected: the decoder is total. -/
theorem rejected_of_not_ok {p : Params} {bytes : List Byte} (h : ∀ i rest, decode p bytes ≠ .ok (i, rest)) :
    Rejected p bytes := by
  cases hd : decode p bytes with
  | error e => exact ⟨e, hd⟩
  | ok v => exact absurd hd (h v.1 v.2)

theorem takePixel_badColor {c : Byte} (h0 : c ≠ 0) (h1 : c ≠ 1) (h2 : c ≠ 2)
    (x0 x1 x2 x3 y0 y1 y2 y3 : Byte) (rest : List Byte) :
    takePixel (x0 :: x1 :: x2 :: x3 :: y0 :: y1 :: y2 :: y3 :: c :: rest) = .error .badColor := by
  simp only [takePixel, take32, colorOf_unknown h0 h1 h2]

/-- A bad record after fewer good ones than were announced makes the whole list bad. -/
theorem takePixels_bad_record {n : Nat} {pxs : List Pixel} {l : List Byte} {e : DecodeError} (hn : pxs.length < n)
    (hl : takePixel l = .error e) : takePixels n (pixelBytes pxs ++ l) = .error e := by
  induction pxs generalizing n with
  | nil =>
    obtain ⟨n, rfl⟩ := Nat.exists_eq_add_one.mpr hn
    simp only [pixelBytes, List.nil_append, takePixels, hl]
  | cons px pxs ih =>
    obtain ⟨n, rfl⟩ := Nat.exists_eq_add_one.mpr (Nat.zero_lt_of_lt hn)
    simp only [pixelBytes, List.append_assoc, takePixels, takePixel_bytes, ih (Nat.lt_of_succ_lt_succ hn)]

/-- EXEC accepts only the opcode of a row with a fixed number of data bytes. -/
theorem takeExec_opcode {p : Params} {op : Byte} {l r : List Byte} {c : Command}
    (h : takeExec p (op :: l) = .ok (c, r)) : p.opc.byte c.kind = op := by
  have hbytes := takeExec_inv h
  simp only [WireCmd.frame, WireCmd.op, WireCmd.kind, List.cons_append, List.cons.injEq] at hbytes
  exact hbytes.1

theorem Command.kind_format (c : Command) : c.kind.format ≠ .fb := by
  cases c <;> nofun

theorem takeExec_unknown {p : Params} {op : Byte} (h : ∀ k : CmdKind, k.format ≠ .fb → p.opc.byte k ≠ op)
    (l : List Byte) : ∃ e, takeExec p (op :: l) = .error e := by
  cases hd : takeExec p (op :: l) with
  | error e => exact ⟨e, rfl⟩
  | ok v => exact absurd (takeExec_opcode hd) (h _ (Command.kind_format _))

theorem takeExec_byte {p : Params} (hp : paramsOk p = true) (k : CmdKind) (l : List Byte) :
    takeExec p (p.opc.byte k :: l) = takeCommand p k l := by
  simp only [takeExec, Opc.kindOf_byte (paramsOk_opcodes hp)]

theorem takeExecBuf_unknown {p : Params} {op : Byte} (hb : op ≠ p.opc.writeBlackData) (hr : op ≠ p.opc.writeRedData)
    (hl : op ≠ p.opc.writeLut) (l : List Byte) : ∃ e, takeExecBuf p (op :: l) = .error e := by
  cases hd : takeExecBuf p (op :: l) with
  | error e => exact ⟨e, rfl⟩
  | ok v =>
    have hop : p.opc.byte v.1.kind = op := (List.cons.inj (takeExecBuf_inv hd).2).1
    cases hc : v.1 <;> rw [hc] at hop
    · exact absurd hop.symm hb
    · exact absurd hop.symm hr
    · exact absurd hop.symm hl

/-! ### The illegal forms -/

theorem rejected_of_operands {p : Params} {k : ReqKind} {l : List Byte} {e : DecodeError}
    (h : takeRequest p k l = .error e) : Rejected p (k.code :: l) :=
  ⟨e, (decode_code p k l).trans h⟩

theorem rejected_exec {p : Params} {l : List Byte} {e : DecodeError} (h : takeExec p l = .error e) :
    Rejected p (0x08 :: l) :=
  rejected_of_operands (k := .exec) (e := e) (by simp only [takeRequest, h])

/-- A proper beginning of a request decodes to nothing: the whole request would decode to the same, with bytes left. -/
theorem rejected_take {p : Params} (hp : paramsOk p = true) {i : Instr} (hreq : i.isRequest = true)
    (hwf : i.wellFormed = true) {n : Nat} (hn : n < (encode p i).length) : Rejected p ((encode p i).take n) := by
  apply rejected_of_not_ok
  intro j rest hd
  obtain ⟨hj, hjwf, hbytes⟩ := decode_inv hd
  have hwhole : encode p i ++ [] = encode p j ++ (rest ++ (encode p i).drop n) := by
    rw [← List.append_assoc, hbytes, List.take_append_drop, List.append_nil]
  have hdecode := requestRoundTrip p i [] hp hreq hwf
  rw [hwhole, requestRoundTrip p j _ hp hj hjwf] at hdecode
  simp only [Except.ok.injEq, Prod.mk.injEq, List.append_eq_nil_iff, List.drop_eq_nil_iff] at hdecode
  omega

theorem rejected_of_illegalForm {p : Params} {bytes : List Byte} (hp : paramsOk p = true)
    (h : IllegalForm p bytes) : Rejected p bytes := by
  cases h with
  | code b rest hb => exact ⟨.unknownCode, by simp only [decode, ReqKind.ofCode_unknown hb]⟩
  | clearColor c rest h0 h1 h2 =>
    exact rejected_of_operands (k := .clear) (e := .badColor)
      (by simp only [takeRequest, take8, colorOf_unknown h0 h1 h2])
  | pixelColor c x0 x1 x2 x3 y0 y1 y2 y3 rest h0 h1 h2 =>
    exact rejected_of_operands (k := .setPixel) (e := .badColor)
      (by simp only [takeRequest, takePixel_badColor h0 h1 h2])
  | recordColor pxs c n x0 x1 x2 x3 y0 y1 y2 y3 rest h0 h1 h2 hn =>
    exact rejected_of_operands (k := .drawPixels) (e := .badColor)
      (by simp only [takeRequest, take16_bytes16, takePixels_bad_record hn (takePixel_badColor h0 h1 h2 ..)])
  | writePlane pl rest h0 h1 =>
    rcases rest with _ | ⟨lo, _ | ⟨hi, _ | ⟨v, rest⟩⟩⟩
    iterate 3 exact rejected_of_operands (k := .planeWrite) (e := .truncated) rfl
    exact rejected_of_operands (k := .planeWrite) (e := .badPlane) (by simp only [takeRequest, planeOf_unknown h0 h1])
  | readPlane pl rest h0 h1 =>
    rcases rest with _ | ⟨lo, _ | ⟨hi, rest⟩⟩
    iterate 2 exact rejected_of_operands (k := .planeRead) (e := .truncated) rfl
    exact rejected_of_operands (k := .planeRead) (e := .badPlane) (by simp only [takeRequest, planeOf_unknown h0 h1])
  | bufOpcode op rest hb hr hl =>
    obtain ⟨e, he⟩ := takeExecBuf_unknown hb hr hl rest
    exact rejected_of_operands (k := .execBuf) (e := e) (by simp only [takeRequest, he])
  | execOpcode op rest hop =>
    obtain ⟨e, he⟩ := takeExec_unknown hop rest
    exact rejected_exec he
  | sleepCode b rest h0 h1 h2 =>
    apply rejected_exec (e := .badSleepCode)
    exact (takeExec_byte hp .deepSleepMode _).trans (by simp only [takeCommand, SleepCode.modeOf_unknown h0 h1 h2])
  | entryBits b rest hb =>
    apply rejected_exec (e := .badEntryMode)
    exact (takeExec_byte hp .dataEntryMode _).trans (by simp only [takeCommand, entryOf_unknown hb])
  | truncated i n hreq hwf hn => exact rejected_take hp hreq hwf hn

/-! ### The step -/

/-- An idle block takes a rejected byte string from its queue and halts with it (spec/60_exceptions.md R295). -/
theorem step_rejected {s : State} {bytes : List Byte} {later : List (List Byte)} (hacc : s.accepting)
    (hin : s.inbox = bytes :: later) (h : Rejected s.params bytes) :
    step s = .next (faulted .illegalRequest (.requestBytes bytes) { s with inbox := later }) := by
  obtain ⟨hfault, hidle⟩ := hacc
  obtain ⟨e, he⟩ := h
  simp only [step, hfault, hidle, State.fetch, hin, he]
  rfl

/-- Settles O7: the decoder rejects each of the forms, a proper beginning of a request by the round trip. -/
theorem illegalRequestsFault : Obligations.IllegalRequestsFault := by
  unfold Obligations.IllegalRequestsFault
  intro s bytes later hp hacc hin h
  exact step_rejected hacc hin (rejected_of_illegalForm hp h)

end Sys2Proof
end

section
/-! PROOFS. Responses (spec/30_encoding.md R112): a step that completes or holds gives none, a step that ends its request
gives one or faults, and a request's list ends with a step that ends it. -/

namespace Sys2Proof.Machine

/-! ### One step -/

/-- What a step begun in `s` does about the response: none while the request goes on or holds, and at its end exactly
one, or a fault in its place (spec/60_exceptions.md R295). -/
def Flow.AnswersFrom (s : State) : Flow → Prop
  | .go t => t.pos = s.pos ∧ t.fault = s.fault ∧ t.responses = s.responses
  | .ended t => (t.fault = s.fault ∧ ∃ r, t.responses = s.responses ++ [r]) ∨
      (t.fault ≠ none ∧ t.responses = s.responses)
  | .held t => t.pos = s.pos ∧ t.responses = s.responses

theorem encodeAndSend_answers (c : WireCmd) (s : State) : (s.encodeAndSend c).AnswersFrom s := by
  rcases s.encodeAndSend_cases c with ⟨f, -, h⟩ | ⟨evs, n, -, h⟩ | ⟨e, evs, n, -, h⟩ <;> rw [h]
  · exact .inr ⟨nofun, rfl⟩
  · exact ⟨rfl, rfl, rfl⟩
  · exact .inl ⟨rfl, _, rfl⟩

theorem doMicro_answers (m : Micro) (s : State) : (s.doMicro m).AnswersFrom s := by
  cases m with
  | send c => exact encodeAndSend_answers c s
  | sendIf c =>
    cases c with
    | none => exact ⟨rfl, rfl, rfl⟩
    | some c => exact encodeAndSend_answers c s
  | waitBusy =>
    show s.emitWaitBusy.AnswersFrom s
    cases hb : s.busyLevel s.pollCount
    · rw [State.emitWaitBusy_clear hb]
      exact ⟨rfl, rfl, rfl⟩
    · rw [State.emitWaitBusy_busy hb]
      exact ⟨rfl, rfl⟩
  | pixel px =>
    show (Flow.go (s.drawPixel px)).AnswersFrom s
    rw [State.drawPixel_frame]
    exact ⟨rfl, rfl, rfl⟩
  | writeByte p i v => cases p <;> exact ⟨rfl, rfl, rfl⟩
  | resetPulse | delay _ | setSeq _ | fill _ _ => exact ⟨rfl, rfl, rfl⟩
  | finish | finishExec | finishReset | finishUpdate _ _ | finishSleep | finishStatus | finishRead _ _ =>
    exact .inl ⟨rfl, _, rfl⟩

/-! ### A run -/

/-- After the responses `before`, a request is over in `t` with exactly one more, or it faulted or holds with none. -/
def AnsweredOnce (before : List Response) (t : State) : Prop :=
  (t.pos = .idle ∧ t.fault = none ∧ ∃ r, t.responses = before ++ [r]) ∨
  ((t.pos ≠ .idle ∨ t.fault ≠ none) ∧ t.responses = before)

theorem doMicro_ended_answeredOnce {m : Micro} {s t : State} (hf : s.fault = none) (h : s.doMicro m = .ended t) :
    AnsweredOnce s.responses t := by
  have ha := doMicro_answers m s
  rw [h] at ha
  rcases ha with ⟨hfault, hr⟩ | ⟨hfault, hr⟩
  · exact .inl ⟨State.doMicro_ended_pos h, hfault.trans hf, hr⟩
  · exact .inr ⟨.inr hfault, hr⟩

theorem State.nextPos_ne_idle {s : State} (h : s.pos ≠ .idle) : s.nextPos.pos ≠ .idle := by
  rw [State.nextPos_eq]
  cases hp : s.pos with
  | idle => exact absurd hp h
  | running req mis k => nofun

/-- A list whose last step ends the request, run by an unhalted block in the middle of a request. -/
theorem State.runSteps_answeredOnce {l : List Micro} {last : Micro}
    (hlast : ∀ t : State, ∃ u, t.doMicro last = .ended u) {s : State} (hp : s.pos ≠ .idle) (hf : s.fault = none) :
    AnsweredOnce s.responses (State.runSteps (l ++ [last]) s) := by
  induction l generalizing s with
  | nil =>
    obtain ⟨u, h⟩ := hlast s
    rw [List.nil_append, State.runSteps_ended h]
    exact doMicro_ended_answeredOnce hf h
  | cons m l ih =>
    have ha := doMicro_answers m s
    rw [List.cons_append]
    cases h : s.doMicro m with
    | go t =>
      rw [h] at ha
      obtain ⟨hpos, hfault, hr⟩ := ha
      rw [State.runSteps_go h, ← hr]
      exact ih (s := t.nextPos) (State.nextPos_ne_idle (hpos ▸ hp)) (hfault.trans hf)
    | ended t =>
      rw [State.runSteps_ended h]
      exact doMicro_ended_answeredOnce hf h
    | held t =>
      rw [h] at ha
      obtain ⟨hpos, hr⟩ := ha
      rw [State.runSteps_held h]
      exact .inr ⟨.inl (hpos ▸ hp), hr⟩

theorem State.perform_answeredOnce {s : State} (hf : s.fault = none) {i : Instr} (hreq : i.isRequest = true) :
    AnsweredOnce s.responses (s.perform i) := by
  cases hchk : requestFault s i with
  | some f =>
    rw [State.perform_of_fault hchk]
    exact .inr ⟨.inr nofun, rfl⟩
  | none =>
    obtain ⟨l, last, hsteps, hlast⟩ := stepsOf_last (s := s) hreq
    rw [State.perform_of_checked hchk, hsteps]
    exact State.runSteps_answeredOnce hlast (s := s.start i) nofun hf

/-- Settles O52: a request's steps give no response before the one that ends it. -/
theorem oneResponsePerRequest : Obligations.OneResponsePerRequest := by
  unfold Obligations.OneResponsePerRequest
  intro s t i hacc hreq h
  rw [exec_request hreq, runRequest_accepting hacc] at h
  cases h
  rcases State.perform_answeredOnce hacc.1 hreq with ⟨hpos, hfault, hr⟩ | ⟨hno, hr⟩
  · exact ⟨fun _ => hr, fun h => (h.elim (· hpos) (· hfault)).elim⟩
  · exact ⟨fun ⟨hpos, hfault⟩ => (hno.elim (· hpos) (· hfault)).elim, fun _ => hr⟩

end Sys2Proof.Machine
end

section
/-! PROOFS. The wire commands (spec/40_commands.md R142 to R164): what `exec` of a command does on an unhalted block. The
checks are decided once, by the command's admission and its ranges; a command that passes them sends its frame, and ends
at the first send that fails. -/

namespace Sys2Proof.Machine

open Sys2Proof.Claims

/-! ### The ranges (R106) -/

theorem dummyLinePeriod_inRange_iff {p : Params} {v : Byte} :
    wireInRange p (.fixed (.dummyLinePeriod v)) = true ↔ v.toNat ≤ p.maxDummyLinePeriod := decide_eq_true_iff

theorem xInRange_iff {p : Params} {a : Byte} : xInRange p a = true ↔ a.toNat + 1 ≤ p.maxSourceOutputs / 8 :=
  decide_eq_true_iff

theorem yInRange_iff {p : Params} {a : Half} : yInRange p a = true ↔ a.toNat ≤ p.maxGateOutputs := decide_eq_true_iff

theorem startEndXPosition_inRange_iff {p : Params} {a b : Byte} :
    wireInRange p (.fixed (.startEndXPosition a b)) = true ↔
      a.toNat + 1 ≤ p.maxSourceOutputs / 8 ∧ b.toNat + 1 ≤ p.maxSourceOutputs / 8 := by
  simp only [wireInRange, commandInRange, Bool.and_eq_true, xInRange_iff]

theorem startEndYPosition_inRange_iff {p : Params} {a b : Half} :
    wireInRange p (.fixed (.startEndYPosition a b)) = true ↔
      a.toNat ≤ p.maxGateOutputs ∧ b.toNat ≤ p.maxGateOutputs := by
  simp only [wireInRange, commandInRange, Bool.and_eq_true, yInRange_iff]

theorem gateScanStartPosition_inRange_iff {p : Params} {pos : Half} :
    wireInRange p (.fixed (.gateScanStartPosition pos)) = true ↔ pos.toNat < p.maxGateOutputs := decide_eq_true_iff

theorem writeLut_inRange_iff {p : Params} {buf : List Byte} :
    wireInRange p (.buffer (.writeLut buf)) = true ↔ (p.lutStrict = true → buf.length = p.lutLen) := by
  cases h : p.lutStrict <;> simp [wireInRange, bufInRange, lutOk, h]

/-! ### The checks (R141, R293) -/

/-- The command is in the admitted set: not one of the GK extras, or they are admitted (R140). -/
def Admitted (p : Params) (c : WireCmd) : Prop := isExtra c = false ∨ p.admitGkExtra = true

theorem unimplementedFault_of_admitted {p : Params} {c : WireCmd} (ha : Admitted p c) : unimplementedFault p c = none := by
  rcases ha with h | h <;> simp [unimplementedFault, h]

theorem commandFault_of_inRange {p : Params} {c : WireCmd} (ha : Admitted p c) (hr : wireInRange p c = true) :
    commandFault p c = none := by
  simp [commandFault, unimplementedFault_of_admitted ha, rangeFault, hr]

theorem commandFault_of_outOfRange {p : Params} {c : WireCmd} (ha : Admitted p c) (hr : ¬ wireInRange p c = true) :
    commandFault p c = some { code := .argOutOfRange, info := .command c } := by
  simp [commandFault, unimplementedFault_of_admitted ha, rangeFault, hr]

/-- A command that is not admitted faults whatever its arguments: the check comes before the range check (R293). -/
theorem commandFault_of_unadmitted {p : Params} {c : WireCmd} (hx : isExtra c = true) (ha : p.admitGkExtra = false) :
    commandFault p c = some { code := .unimplementedCommand, info := .name c.kind } := by
  simp [commandFault, unimplementedFault, hx, ha]

/-! ### `exec` of a wire command -/

section Exec

variable {s : State} {c : WireCmd}

theorem exec_wire_running (hf : s.fault = none) (c : WireCmd) :
    exec c.toInstr s = .next (s.encodeAndSend c).state := by
  rw [exec_wire, runWire, hf]

theorem exec_wire_fault (hf : s.fault = none) {code : ErrorCode} {info : FaultInfo}
    (hc : commandFault s.params c = some { code := code, info := info }) :
    exec c.toInstr s = .next (faulted code info s) := by
  rw [exec_wire_running hf, State.encodeAndSend_fault hc]
  rfl

theorem exec_wire_outOfRange (hf : s.fault = none) (ha : Admitted s.params c) (hr : ¬ wireInRange s.params c = true) :
    exec c.toInstr s = .next (faulted .argOutOfRange (.command c) s) :=
  exec_wire_fault hf (commandFault_of_outOfRange ha hr)

/-- A command that passes its checks, as many sends good as its frame has events. -/
theorem exec_wire_sent (hf : s.fault = none) (hc : commandFault s.params c = none)
    (hs : s.sendsOk (frameEvents (c.op s.params) (c.data s.params)).length) :
    exec c.toInstr s = .next { s with
      trace := s.trace ++ frameEvents (c.op s.params) (c.data s.params)
      sendCount := s.sendCount + (frameEvents (c.op s.params) (c.data s.params)).length
      ctrl := s.ctrl.onFrame.afterFrame c.kind } := by
  have h0 : s.sendResult s.sendCount = none := hs 0 (by simp [frameEvents])
  have h1 : c.data s.params ≠ [] → s.sendResult (s.sendCount + 1) = none := fun hd => hs 1 (by simp [frameEvents, hd])
  rw [exec_wire_running hf, State.encodeAndSend_ok hc h0 h1]
  rfl

/-- A frame is at most two events (spec/30_encoding.md R101). -/
theorem State.sendsOk_frame (hs : s.sendsOk 2) (op : Byte) (data : List Byte) :
    s.sendsOk (frameEvents op data).length := by
  have hlen : (frameEvents op data).length ≤ 2 := by cases data <;> simp [frameEvents]
  exact fun k hk => hs k (Nat.lt_of_lt_of_le hk hlen)

/-- A command that begins no long operation: its frame, and nothing else. -/
theorem exec_wire_frame (hf : s.fault = none) (hs : s.sendsOk 2) (ha : Admitted s.params c)
    (hr : wireInRange s.params c = true) (hl : isLongOp c.kind = false) :
    exec c.toInstr s = .next { s with
      trace := s.trace ++ frameEvents (c.op s.params) (c.data s.params)
      sendCount := s.sendCount + (frameEvents (c.op s.params) (c.data s.params)).length
      ctrl := s.ctrl.onFrame } := by
  rw [exec_wire_sent hf (commandFault_of_inRange ha hr) (State.sendsOk_frame hs _ _), Ctrl.afterFrame_of_not_long hl]

/-- The long operations have no data. -/
theorem isLongOp_eq_false_of_data {p : Params} (hd : c.data p ≠ []) : isLongOp c.kind = false := by
  rcases c with c | c
  · cases c with
    | softReset | updateDisplay => exact absurd rfl hd
    | _ => rfl
  · cases c <;> rfl

/-- A command with data bytes: CMD and one DATA event. -/
theorem exec_wire_frameSent (hf : s.fault = none) (hs : s.sendsOk 2) (ha : Admitted s.params c)
    (hr : wireInRange s.params c = true) (hd : c.data s.params ≠ []) :
    exec c.toInstr s = .next (frameSent (c.op s.params) (c.data s.params) s) := by
  rw [exec_wire_frame hf hs ha hr (isLongOp_eq_false_of_data hd)]
  simp [frameSent, frameEvents, hd]

/-- A long operation: its opcode alone, and the controller may be busy from then on. -/
theorem exec_wire_longOpSent (hf : s.fault = none) (hs : s.sendsOk 1) (hc : commandFault s.params c = none)
    (hd : c.data s.params = []) (hl : isLongOp c.kind = true) :
    exec c.toInstr s = .next (longOpSent (c.op s.params) s) := by
  have hev : frameEvents (c.op s.params) (c.data s.params) = [.cmd (c.op s.params)] := by simp [frameEvents, hd]
  have h := exec_wire_sent hf hc (by rw [hev]; exact hs)
  rw [hev, Ctrl.afterFrame_of_long hl] at h
  exact h

end Exec

/-! ### Failed sends (R141, R210, R297) -/

theorem State.sendFrame_cmdFailed {s : State} {c : WireCmd} {e : TransportError}
    (h0 : s.sendResult s.sendCount = some e) :
    s.sendFrame c = .ended (State.transportError e { s with
      trace := s.trace ++ [.cmdFailed (c.op s.params) e]
      sendCount := s.sendCount + 1
      ctrl := s.ctrl.onFrame }) := by
  rcases State.sendFrame_cases c s with ⟨⟨hn, -⟩, -⟩ | ⟨e', he, h⟩ | ⟨e', hn, -⟩
  · cases h0.symm.trans hn
  · cases h0.symm.trans he
    exact h
  · cases h0.symm.trans hn

theorem State.sendFrame_dataFailed {s : State} {c : WireCmd} {e : TransportError} (hd : c.data s.params ≠ [])
    (h0 : s.sendResult s.sendCount = none) (h1 : s.sendResult (s.sendCount + 1) = some e) :
    s.sendFrame c = .ended (State.transportError e { s with
      trace := s.trace ++ [.cmd (c.op s.params), .dataFailed (c.data s.params) e]
      sendCount := s.sendCount + 2
      ctrl := s.ctrl.onFrame }) := by
  rcases State.sendFrame_cases c s with ⟨⟨-, hn⟩, -⟩ | ⟨e', he, -⟩ | ⟨e', -, -, he, h⟩
  · cases h1.symm.trans (hn hd)
  · cases h0.symm.trans he
  · cases h1.symm.trans he
    exact h

/-- The error forgets the controller, so what the failed frame did to it before does not show (R45). -/
theorem State.transportError_onFrame (e : TransportError) (s : State) (evs : List Event) (n : Nat) :
    State.transportError e { s with trace := evs, sendCount := n, ctrl := s.ctrl.onFrame } =
      { errored e s with trace := evs, sendCount := n } := by
  simp only [State.transportError, Ctrl.forget_onFrame]
  rfl

/-! ### The obligations -/

/-- Settles O9: none of the seven is an extra or has a range, and each has one data byte. -/
theorem oneByteCommandsComplete : Obligations.OneByteCommandsComplete := by
  unfold Obligations.OneByteCommandsComplete
  intro s v hf hs
  have sent (c : Command) (hx : isExtra (.fixed c) = false) (hr : commandInRange s.params c = true)
      (hd : c.data s.params = [v]) :
      exec c.toInstr s = .next (frameSent (s.params.opc.byte c.kind) [v] s) := by
    rw [← hd]
    exact exec_wire_frameSent (c := .fixed c) hf hs (.inl hx) hr (fun h => List.cons_ne_nil v [] (hd.symm.trans h))
  exact ⟨sent (.gateDrivingVoltage v) rfl rfl rfl, sent (.updateDisplayOption2 v) rfl rfl rfl,
    sent (.writeVcom v) rfl rfl rfl, sent (.gateLineWidth v) rfl rfl rfl, sent (.borderWaveform v) rfl rfl rfl,
    sent (.analogBlockControl v) rfl rfl rfl, sent (.digitalBlockControl v) rfl rfl rfl⟩

/-- Settles O10: the two ranges, and past each the fault. -/
theorem rangedByteCommandsCompleteOrFault : Obligations.RangedByteCommandsCompleteOrFault := by
  unfold Obligations.RangedByteCommandsCompleteOrFault
  intro s v hf
  refine ⟨fun h hs => ?_, fun h => ?_, fun h hs => ?_, fun h => ?_⟩
  · exact exec_wire_frameSent (c := .fixed (.dummyLinePeriod v)) hf hs (.inl rfl)
      (dummyLinePeriod_inRange_iff.mpr h) nofun
  · exact exec_wire_outOfRange (c := .fixed (.dummyLinePeriod v)) hf (.inl rfl)
      (dummyLinePeriod_inRange_iff.not.mpr (Nat.not_le.mpr h))
  · exact exec_wire_frameSent (c := .fixed (.xAddress v)) hf hs (.inl rfl) (xInRange_iff.mpr h) nofun
  · exact exec_wire_outOfRange (c := .fixed (.xAddress v)) hf (.inl rfl)
      (xInRange_iff.not.mpr (Nat.not_le.mpr h))

/-- Settles O11: both operands have the range of a Y bound. -/
theorem gateCountAndYAddressCompleteOrFault : Obligations.GateCountAndYAddressCompleteOrFault := by
  unfold Obligations.GateCountAndYAddressCompleteOrFault
  intro s v scan hf
  refine ⟨fun h hs => ?_, fun h => ?_⟩
  · have hr : yInRange s.params v = true := yInRange_iff.mpr h
    exact ⟨exec_wire_frameSent (c := .fixed (.driverOutputControl v scan)) hf hs (.inl rfl) hr nofun,
      exec_wire_frameSent (c := .fixed (.yAddress v)) hf hs (.inl rfl) hr nofun⟩
  · have hr : ¬ yInRange s.params v = true := yInRange_iff.not.mpr (Nat.not_le.mpr h)
    exact ⟨exec_wire_outOfRange (c := .fixed (.driverOutputControl v scan)) hf (.inl rfl) hr,
      exec_wire_outOfRange (c := .fixed (.yAddress v)) hf (.inl rfl) hr⟩

/-- Settles O12: the range of a window is the range of its two bounds; their order is not checked. -/
theorem windowCommandsCompleteOrFault : Obligations.WindowCommandsCompleteOrFault := by
  unfold Obligations.WindowCommandsCompleteOrFault
  intro s a b c d hf
  refine ⟨fun h hs => ?_, fun h => ?_, fun h hs => ?_, fun h => ?_⟩
  · exact exec_wire_frameSent (c := .fixed (.startEndXPosition a b)) hf hs (.inl rfl)
      (startEndXPosition_inRange_iff.mpr h) nofun
  · exact exec_wire_outOfRange (c := .fixed (.startEndXPosition a b)) hf (.inl rfl)
      (startEndXPosition_inRange_iff.not.mpr h)
  · exact exec_wire_frameSent (c := .fixed (.startEndYPosition c d)) hf hs (.inl rfl)
      (startEndYPosition_inRange_iff.mpr h) nofun
  · exact exec_wire_outOfRange (c := .fixed (.startEndYPosition c d)) hf (.inl rfl)
      (startEndYPosition_inRange_iff.not.mpr h)

/-- Settles O13: the data of the three commands, the bytes of each mode and axis by cases. -/
theorem voltageSleepAndEntryCommandsComplete : Obligations.VoltageSleepAndEntryCommandsComplete := by
  unfold Obligations.VoltageSleepAndEntryCommandsComplete
  intro s a b c m e x hf hs
  refine ⟨?_, ?_, ?_⟩
  · exact exec_wire_frameSent (c := .fixed (.sourceDrivingVoltage a b c)) hf hs (.inl rfl) rfl nofun
  · have h := exec_wire_frameSent (c := .fixed (.deepSleepMode m)) hf hs (.inl rfl) rfl nofun
    cases m <;> exact h
  · have h := exec_wire_frameSent (c := .fixed (.dataEntryMode e x)) hf hs (.inl rfl) rfl nofun
    cases x <;> cases e <;> exact h

/-- Settles O14: the two commands without data are the long operations. -/
theorem longOperationsSendOnlyTheirOpcode : Obligations.LongOperationsSendOnlyTheirOpcode := by
  unfold Obligations.LongOperationsSendOnlyTheirOpcode
  intro s hf hs
  exact ⟨exec_wire_longOpSent (c := .fixed .softReset) hf hs (commandFault_of_inRange (.inl rfl) rfl) rfl rfl,
    exec_wire_longOpSent (c := .fixed .updateDisplay) hf hs (commandFault_of_inRange (.inl rfl) rfl) rfl rfl⟩

/-- Settles O15: the admission is checked first, the range of GateScanStartPosition after it. -/
theorem extraCommandsNeedTheirParameter : Obligations.ExtraCommandsNeedTheirParameter := by
  unfold Obligations.ExtraCommandsNeedTheirParameter
  intro s a b c d pos hf
  refine ⟨fun ha => ⟨?_, ?_⟩, fun ha hs => ?_, fun ha h hs => ?_, fun ha h => ?_⟩
  · exact exec_wire_fault (c := .fixed (.boosterEnable a b c d)) hf (commandFault_of_unadmitted rfl ha)
  · exact exec_wire_fault (c := .fixed (.gateScanStartPosition pos)) hf (commandFault_of_unadmitted rfl ha)
  · exact exec_wire_frameSent (c := .fixed (.boosterEnable a b c d)) hf hs (.inr ha) rfl nofun
  · exact exec_wire_frameSent (c := .fixed (.gateScanStartPosition pos)) hf hs (.inr ha)
      (gateScanStartPosition_inRange_iff.mpr h) nofun
  · exact exec_wire_outOfRange (c := .fixed (.gateScanStartPosition pos)) hf (.inr ha)
      (gateScanStartPosition_inRange_iff.not.mpr (Nat.not_lt.mpr h))

/-- Settles O16: the frame of the whole buffer, and for WriteLUT the length check before it. -/
theorem bufferCommandsComplete : Obligations.BufferCommandsComplete := by
  unfold Obligations.BufferCommandsComplete
  intro s buf hf
  refine ⟨fun hs => ⟨?_, ?_⟩, fun hs h => ?_, fun hstrict h => ?_⟩
  · exact exec_wire_frame (c := .buffer (.writeBlackData buf)) hf hs (.inl rfl) rfl rfl
  · exact exec_wire_frame (c := .buffer (.writeRedData buf)) hf hs (.inl rfl) rfl rfl
  · exact exec_wire_frame (c := .buffer (.writeLut buf)) hf hs (.inl rfl) (writeLut_inRange_iff.mpr h) rfl
  · exact exec_wire_outOfRange (c := .buffer (.writeLut buf)) hf (.inl rfl)
      (fun hr => h (writeLut_inRange_iff.mp hr hstrict))

/-- Settles O17: the frame stops at the send that fails, and the transport error is taken there. -/
theorem failedSendEndsTheCommand : Obligations.FailedSendEndsTheCommand := by
  unfold Obligations.FailedSendEndsTheCommand
  intro s c e hf hc
  rw [exec_wire_running hf, State.encodeAndSend_send hc]
  refine ⟨fun h0 => ?_, fun hd h0 h1 => ?_⟩
  · rw [State.sendFrame_cmdFailed h0, Flow.state, State.transportError_onFrame]
  · rw [State.sendFrame_dataFailed hd h0 h1, Flow.state, State.transportError_onFrame]

end Sys2Proof.Machine
end

section
/-! PROOFS. The sequencer transitions (spec/41_sequencer.md R191, R209, R210): where a request in progress may stand
after any of its steps. It is under way, or a send failed and that event is the last, or it completed with the state that the
transition table gives. -/

namespace Sys2Proof.Machine

/-! ### Failed events -/

/-- The transport's error, if the event is a failed send (spec/10_state.md R52). -/
def Event.failure : Event → Option TransportError
  | .cmdFailed _ e | .dataFailed _ e => some e
  | .cmd _ | .data _ | .resetPulse | .waitBusy | .delay _ => none

theorem Event.failure_eq_some_iff {ev : Event} {e : TransportError} :
    ev.failure = some e ↔ (∃ b, ev = .cmdFailed b e) ∨ ∃ bs, ev = .dataFailed bs e := by
  cases ev <;> simp [Event.failure]

/-- From `s` to `t` events are only added, and none of them failed. -/
def NoFailure (s t : State) : Prop := ∃ evs, t.trace = s.trace ++ evs ∧ ∀ ev ∈ evs, ev.failure = none

theorem NoFailure.of_trace_eq {s t : State} (h : t.trace = s.trace) : NoFailure s t := ⟨[], by simp [h], nofun⟩

theorem NoFailure.of_append {s t : State} {ev : Event} (h : t.trace = s.trace ++ [ev]) (hev : ev.failure = none) :
    NoFailure s t := ⟨[ev], h, by simpa using hev⟩

theorem NoFailure.trans {s t u : State} (h : NoFailure s t) (h' : NoFailure t u) : NoFailure s u := by
  obtain ⟨evs, ht, hevs⟩ := h
  obtain ⟨evs', hu, hevs'⟩ := h'
  refine ⟨evs ++ evs', by rw [hu, ht, List.append_assoc], fun ev hev => ?_⟩
  exact (List.mem_append.mp hev).elim (hevs ev) (hevs' ev)

theorem frameEvents_failure {op : Byte} {data : List Byte} : ∀ ev ∈ frameEvents op data, ev.failure = none := by
  cases data <;> simp [frameEvents, Event.failure]

/-! ### Where a request stands -/

/-- `st.seq` after a request that meets no error, from its value before (R209, R191). -/
def endSeq (req : Instr) (mis : Bool) (q : SeqState) : SeqState :=
  match req with
  | .reset | .update _ _ | .gfxUpdate => if mis then q else .ready
  | .deepSleep => if mis then q else .sleeping
  | _ => q

/-- `st.last_err` after a request that meets no error: cleared by the requests that emit frames (R192, R199,
R203, R206). -/
def endErr (req : Instr) (e : Option TransportError) : Option TransportError :=
  match req with
  | .reset | .update _ _ | .gfxUpdate | .deepSleep | .exec _ | .execBuf _ => none
  | _ => e

theorem endSeq_misused (req : Instr) (q : SeqState) : endSeq req true q = q := by
  cases req <;> rfl

theorem endSeq_plain {req : Instr} (h : plainRequest req) (hs : req ≠ .deepSleep) (mis : Bool) (q : SeqState) :
    endSeq req mis q = q := by
  cases req with
  | reset => exact absurd rfl h.1
  | update b r => exact absurd (.inl ⟨b, r, rfl⟩) h.2
  | gfxUpdate => exact absurd (.inr rfl) h.2
  | deepSleep => exact absurd rfl hs
  | _ => rfl

theorem endSeq_update {req : Instr} (h : isUpdate req) (mis : Bool) (q : SeqState) :
    endSeq req mis q = if mis then q else .ready := by
  rcases h with ⟨b, r, rfl⟩ | rfl <;> rfl

theorem endErr_update {req : Instr} (h : isUpdate req) (e : Option TransportError) : endErr req e = none := by
  rcases h with ⟨b, r, rfl⟩ | rfl <;> rfl

/-- `st.seq` has a transient value of an unmisused request's own (spec/10_state.md R33). -/
def OwnTransient (req : Instr) (mis : Bool) (q : SeqState) : Prop :=
  mis = false ∧ ((req = .reset ∧ q = .initialized) ∨ (isUpdate req ∧ q = .updating))

/-- `t` is later than `s` in a request that goes on: no response and no failure yet. -/
structure Underway (req : Instr) (mis : Bool) (s t : State) : Prop where
  fault : t.fault = s.fault
  lastErr : t.lastErr = s.lastErr
  responses : t.responses = s.responses
  trace : NoFailure s t
  seq : t.seq = s.seq ∨ OwnTransient req mis t.seq

/-- Between `s` and `t` a send failed with `e`, and that ended the request (R210; spec/10_state.md R45). -/
structure FailedWith (e : TransportError) (s t : State) : Prop where
  fault : t.fault = s.fault
  pos : t.pos = .idle
  seq : t.seq = .errored
  lastErr : t.lastErr = some e
  responses : t.responses = s.responses ++ [.errTransport e]
  ctrl : ∃ c : Ctrl, t.ctrl = c.forget
  trace : ∃ evs ev, t.trace = s.trace ++ (evs ++ [ev]) ∧ (∀ ev' ∈ evs, ev'.failure = none) ∧ ev.failure = some e

/-- Between `s` and `t` the request completed (R209). -/
structure Completed (req : Instr) (mis : Bool) (s t : State) : Prop where
  fault : t.fault = s.fault
  pos : t.pos = .idle
  seq : t.seq = endSeq req mis s.seq
  lastErr : t.lastErr = endErr req s.lastErr
  responses : ∃ r, (∀ e, r ≠ .errTransport e) ∧ t.responses = s.responses ++ [r]
  trace : NoFailure s t

section Stages

variable {req : Instr} {mis : Bool} {s t u : State} {e : TransportError}

theorem Underway.refl (req : Instr) (mis : Bool) (s : State) : Underway req mis s s :=
  ⟨rfl, rfl, rfl, .of_trace_eq rfl, .inl rfl⟩

theorem Underway.trans (h : Underway req mis s t) (h' : Underway req mis t u) : Underway req mis s u where
  fault := h'.fault.trans h.fault
  lastErr := h'.lastErr.trans h.lastErr
  responses := h'.responses.trans h.responses
  trace := h.trace.trans h'.trace
  seq := by
    rcases h'.seq with hseq | hseq
    · rw [hseq]
      exact h.seq
    · exact .inr hseq

theorem Underway.failedWith (h : Underway req mis s t) (h' : FailedWith e t u) : FailedWith e s u where
  fault := h'.fault.trans h.fault
  pos := h'.pos
  seq := h'.seq
  lastErr := h'.lastErr
  responses := by rw [h'.responses, h.responses]
  ctrl := h'.ctrl
  trace := by
    obtain ⟨evs, ht, hevs⟩ := h.trace
    obtain ⟨evs', ev, hu, hevs', hev⟩ := h'.trace
    refine ⟨evs ++ evs', ev, by rw [hu, ht]; simp, ?_, hev⟩
    exact fun ev' h => (List.mem_append.mp h).elim (hevs ev') (hevs' ev')

/-- A request that has a transient value to leave leaves it, so the value does not show in the end. -/
theorem endSeq_of_ownTransient {q : SeqState} (h : OwnTransient req mis q) (q' : SeqState) :
    endSeq req mis q = endSeq req mis q' := by
  obtain ⟨rfl, ⟨rfl, -⟩ | ⟨hu, -⟩⟩ := h
  · rfl
  · rw [endSeq_update hu, endSeq_update hu]
    rfl

theorem Underway.completed (h : Underway req mis s t) (h' : Completed req mis t u) : Completed req mis s u where
  fault := h'.fault.trans h.fault
  pos := h'.pos
  seq := by
    rcases h.seq with hseq | hseq
    · rw [h'.seq, hseq]
    · rw [h'.seq, endSeq_of_ownTransient hseq]
  lastErr := by rw [h'.lastErr, h.lastErr]
  responses := by rw [← h.responses]; exact h'.responses
  trace := h.trace.trans h'.trace

/-! ### One step -/

/-- How a step of a request begun in `s` may end. -/
def Flow.AdvancesFrom (req : Instr) (mis : Bool) (s : State) : Flow → Prop
  | .go t | .held t => Underway req mis s t
  | .ended t => (∃ e, FailedWith e s t) ∨ Completed req mis s t

theorem encodeAndSend_advances {c : WireCmd} (hc : commandFault s.params c = none) :
    (s.encodeAndSend c).AdvancesFrom req mis s := by
  rw [State.encodeAndSend_send hc]
  rcases State.sendFrame_cases c s with ⟨-, h⟩ | ⟨e, -, h⟩ | ⟨e, -, -, -, h⟩ <;> rw [h]
  · exact ⟨rfl, rfl, rfl, ⟨_, rfl, frameEvents_failure⟩, .inl rfl⟩
  · exact .inl ⟨e, rfl, rfl, rfl, rfl, rfl, ⟨_, rfl⟩, [], _, rfl, nofun, rfl⟩
  · exact .inl ⟨e, rfl, rfl, rfl, rfl, rfl, ⟨_, rfl⟩, [.cmd _], _, rfl, by simp [Event.failure], rfl⟩

/-- EXEC and EXEC_BUF end in a step of their own. -/
theorem endErr_of_finish_mem (hm : Micro.finish ∈ stepsOf s req) (hreq : plainRequest req) (hs : req ≠ .deepSleep)
    (e : Option TransportError) : endErr req e = e := by
  cases req with
  | reset => exact absurd rfl hreq.1
  | update b r => exact absurd (.inl ⟨b, r, rfl⟩) hreq.2
  | gfxUpdate => exact absurd (.inr rfl) hreq.2
  | deepSleep => exact absurd rfl hs
  | exec c => simp [stepsOf, execSteps] at hm
  | execBuf c => simp [stepsOf, execBufSteps] at hm
  | _ => rfl

/-- Every step of a checked request leaves it under way, failed or completed. -/
theorem doMicro_advances {m : Micro} (hchk : requestFault s req = none) (hm : m ∈ stepsOf s req)
    (hmis : s.pos.misused = mis) : (s.doMicro m).AdvancesFrom req mis s := by
  have hb := belongs_of_mem hchk m hm
  have sends (c : WireCmd) (hc : m.command = some c) : (s.encodeAndSend c).AdvancesFrom req mis s :=
    encodeAndSend_advances (commandFault_of_mem hchk hm hc)
  cases m with
  | send c => exact sends c rfl
  | sendIf c =>
    cases c with
    | none => exact Underway.refl req mis s
    | some c => exact sends c rfl
  | waitBusy =>
    show s.emitWaitBusy.AdvancesFrom req mis s
    cases hl : s.busyLevel s.pollCount
    · rw [State.emitWaitBusy_clear hl]
      exact ⟨rfl, rfl, rfl, .of_append rfl rfl, .inl rfl⟩
    · rw [State.emitWaitBusy_busy hl]
      exact ⟨rfl, rfl, rfl, .of_trace_eq rfl, .inl rfl⟩
  | resetPulse | delay _ => exact ⟨rfl, rfl, rfl, .of_append rfl rfl, .inl rfl⟩
  | setSeq q =>
    refine ⟨rfl, rfl, rfl, .of_trace_eq rfl, ?_⟩
    rw [State.setSeq_seq, hmis]
    cases mis with
    | true => exact .inl rfl
    | false => exact .inr ⟨rfl, hb⟩
  | fill _ _ => exact ⟨rfl, rfl, rfl, .of_trace_eq rfl, .inl rfl⟩
  | pixel px =>
    show Underway req mis s (s.drawPixel px)
    rw [State.drawPixel_frame]
    exact ⟨rfl, rfl, rfl, .of_trace_eq rfl, .inl rfl⟩
  | writeByte p i v => cases p <;> exact ⟨rfl, rfl, rfl, .of_trace_eq rfl, .inl rfl⟩
  | finish =>
    obtain ⟨hplain, hsleep, -⟩ := hb
    exact .inr ⟨rfl, rfl, (endSeq_plain hplain hsleep ..).symm, (endErr_of_finish_mem hm hplain hsleep _).symm,
      ⟨.ok, nofun, rfl⟩, .of_trace_eq rfl⟩
  | finishExec =>
    rcases hb with ⟨c, rfl⟩ | ⟨c, rfl⟩ <;> exact .inr ⟨rfl, rfl, rfl, rfl, ⟨.ok, nofun, rfl⟩, .of_trace_eq rfl⟩
  | finishReset =>
    cases hb
    exact .inr ⟨rfl, rfl, by rw [State.finishReset_seq, hmis]; rfl, rfl, ⟨.ok, nofun, rfl⟩, .of_trace_eq rfl⟩
  | finishUpdate black red =>
    exact .inr ⟨rfl, rfl, by rw [State.finishUpdate_seq, hmis, endSeq_update hb], (endErr_update hb _).symm,
      ⟨.ok, nofun, rfl⟩, .of_trace_eq rfl⟩
  | finishSleep =>
    cases hb
    exact .inr ⟨rfl, rfl, by rw [State.finishSleep_seq, hmis]; rfl, rfl, ⟨.ok, nofun, rfl⟩, .of_trace_eq rfl⟩
  | finishStatus =>
    cases hb
    exact .inr ⟨rfl, rfl, rfl, rfl, ⟨.okStatus .., nofun, rfl⟩, .of_trace_eq rfl⟩
  | finishRead p i =>
    obtain ⟨idx, -, rfl⟩ := hb
    exact .inr ⟨rfl, rfl, rfl, rfl, ⟨.okByte _, nofun, rfl⟩, .of_trace_eq rfl⟩

/-! ### A run -/

/-- Where the request `req`, in progress in `s`, stands in a later state. -/
inductive Stage (req : Instr) (mis : Bool) (s : State) : State → Prop where
  | running {t : State} (k : Nat) (hp : t.pos = .running req mis k) (hk : k < (stepsOf t req).length)
      (hchk : requestFault t req = none) (h : Underway req mis s t) : Stage req mis s t
  | failed {t : State} (e : TransportError) (h : FailedWith e s t) : Stage req mis s t
  | completed {t : State} (h : Completed req mis s t) : Stage req mis s t

theorem State.tick_idle (h : s.pos = .idle) : s.tick = s := by
  rw [State.tick, h]

theorem Stage.tick (h : Stage req mis s t) : Stage req mis s t.tick := by
  cases h with
  | failed e h =>
    rw [State.tick_idle h.pos]
    exact .failed e h
  | completed h =>
    rw [State.tick_idle h.pos]
    exact .completed h
  | running k hp hk hchk h =>
    have hm := List.getElem?_eq_getElem hk
    have hadv := doMicro_advances (mis := mis) hchk (List.mem_of_getElem? hm) (by rw [hp]; rfl)
    rw [State.tick_running hp hm]
    cases hd : t.doMicro (stepsOf t req)[k] with
    | go u =>
      rw [hd] at hadv
      obtain ⟨hpos, hsteps, hchk'⟩ := doMicro_go_checked hchk hp hm hd
      have hnext : Underway req mis t u.nextPos := ⟨hadv.fault, hadv.lastErr, hadv.responses, hadv.trace, hadv.seq⟩
      exact .running (k + 1) hpos (hsteps ▸ doMicro_go_not_last hm hd) hchk' (h.trans hnext)
    | held u =>
      rw [hd] at hadv
      obtain ⟨hpos, hsteps, hchk'⟩ := doMicro_held_checked hd req
      exact .running k (hpos.trans hp) (hsteps ▸ hk) (hchk'.trans hchk) (h.trans hadv)
    | ended u =>
      rw [hd] at hadv
      rcases hadv with ⟨e, hf⟩ | hc
      · exact .failed e (h.failedWith hf)
      · exact .completed (h.completed hc)

theorem Stage.ticks (h : Stage req mis s t) (n : Nat) : Stage req mis s (State.tick^[n] t) := by
  induction n generalizing t with
  | zero => exact h
  | succ n ih => exact ih h.tick

/-- A request stands at its first step once it has passed its checks. -/
theorem Stage.start {i : Instr} (hreq : i.isRequest = true) (hchk : requestFault s i = none) :
    Stage i (!legalIn i s.seq) s (s.start i) := by
  obtain ⟨hsteps, hchk'⟩ := stepsOf_congr (s := s) (t := s.start i) rfl rfl rfl rfl i
  obtain ⟨l, f, hl, -⟩ := stepsOf_last (s := s) hreq
  exact .running 0 rfl (by simp [hsteps, hl]) (hchk'.trans hchk) ⟨rfl, rfl, rfl, .of_trace_eq rfl, .inl rfl⟩

theorem State.perform_stage {i : Instr} (hreq : i.isRequest = true) (hchk : requestFault s i = none) :
    Stage i (!legalIn i s.seq) s (s.perform i) := by
  obtain ⟨n, hticks, -⟩ := State.perform_eq_ticks hchk
  rw [← hticks]
  exact (Stage.start hreq hchk).ticks n

/-! ### Failed events are last -/

/-- A failed event among those a request added is the last one, and the request failed with its error. -/
theorem Stage.failed_event (h : Stage req mis s t) {events : List Event} (ht : t.trace = s.trace ++ events) {ev : Event}
    (hev : ev ∈ events) (he : ev.failure = some e) : events.getLast? = some ev ∧ FailedWith e s t := by
  have clean : ¬ NoFailure s t := by
    rintro ⟨evs, hevs, hno⟩
    cases List.append_cancel_left (ht.symm.trans hevs)
    cases he.symm.trans (hno ev hev)
  cases h with
  | running k hp hk hchk h => exact absurd h.trace clean
  | completed h => exact absurd h.trace clean
  | failed e' h =>
    obtain ⟨evs, last, hevs, hno, hlast⟩ := h.trace
    cases List.append_cancel_left (ht.symm.trans hevs)
    rcases List.mem_append.mp hev with hin | hin
    · cases he.symm.trans (hno ev hin)
    · cases List.mem_singleton.mp hin
      cases he.symm.trans hlast
      exact ⟨List.getLast?_concat .., h⟩

theorem FailedWith.ctrl_unknown (h : FailedWith e s t) : t.ctrl.lost = true ∧ t.ctrl.bwRam = none ∧
    t.ctrl.redRam = none ∧ t.ctrl.asleep = none ∧ t.ctrl.lut = none := by
  obtain ⟨c, hc⟩ := h.ctrl
  rw [hc]
  exact ⟨rfl, rfl, rfl, rfl, rfl⟩

end Stages

/-- A checked request in progress stands at the step its position names. -/
theorem State.Inv.stage {s : State} (h : s.Inv) {req : Instr} {mis : Bool} {k : Nat} (hp : s.pos = .running req mis k) :
    Stage req mis s s := by
  obtain ⟨hk, hchk, -⟩ := h.position_running hp
  exact .running k hp hk hchk (Underway.refl req mis s)

/-! ### The obligations -/

/-- Settles O47: the request's stage is failed or completed, since it is IDLE. RESET is never misused. -/
theorem sequencerTransitions : Obligations.SequencerTransitions := by
  unfold Obligations.SequencerTransitions
  intro s t i hacc hreq hexec hidle hfault
  rw [exec_request hreq] at hexec
  obtain ⟨-, rfl⟩ := runRequest_next hexec
  cases hchk : requestFault s i with
  | some f =>
    rw [State.perform_of_fault hchk] at hfault
    cases hfault
  | none =>
    cases State.perform_stage hreq hchk with
    | running k hp _ _ _ => cases hidle.symm.trans hp
    | failed e h => exact .inl ⟨e, h.seq, h.lastErr, h.responses⟩
    | completed h =>
      obtain ⟨r, hr, hresp⟩ := h.responses
      refine .inr ⟨fun e he => hr e ?_, ?_⟩
      · simpa using hresp.symm.trans he
      · rw [h.seq]
        cases i with
        | update b r | gfxUpdate | deepSleep => cases hq : s.seq <;> rfl
        | _ => rfl

/-- Settles O48: the flow of the step at hand says which of the cases holds. -/
theorem runningStepTransitions : Obligations.RunningStepTransitions := by
  unfold Obligations.RunningStepTransitions
  intro s t req mis k hinv hf hp hstep
  obtain ⟨hk, hchk, -⟩ := hinv.position_running hp
  have hm := List.getElem?_eq_getElem hk
  have hadv := doMicro_advances (mis := mis) hchk (List.mem_of_getElem? hm) (by rw [hp]; rfl)
  rw [step_running hf hp, State.tick_running hp hm] at hstep
  cases hstep
  have own {q : SeqState} (h : q = s.seq ∨ OwnTransient req mis q) : q = s.seq ∨
      (mis = false ∧ req = .reset ∧ q = .initialized) ∨ (mis = false ∧ isUpdate req ∧ q = .updating) := by
    rcases h with h | ⟨hmis, h | h⟩
    · exact .inl h
    · exact .inr (.inl ⟨hmis, h⟩)
    · exact .inr (.inr ⟨hmis, h⟩)
  cases hd : s.doMicro (stepsOf s req)[k] with
  | go t =>
    rw [hd] at hadv
    obtain ⟨hpos, -⟩ := doMicro_go_next hchk hp hm hd
    exact ⟨hadv.fault.trans hf, .inl ⟨.inl hpos, hadv.responses, hadv.lastErr, own hadv.seq⟩⟩
  | held t =>
    rw [hd] at hadv
    obtain ⟨hwait, rfl⟩ := State.doMicro_held hd
    have hheld : s.heldInWait := by
      simp only [State.heldInWait, hp]
      rw [hm, hwait]
    exact ⟨hf, .inl ⟨.inr ⟨rfl, hheld, rfl⟩, rfl, rfl, .inl rfl⟩⟩
  | ended t =>
    rw [hd] at hadv
    rcases hadv with ⟨e, h⟩ | h
    · exact ⟨h.fault.trans hf, .inr ⟨h.pos, _, h.responses, .inl ⟨e, rfl, h.seq, h.lastErr⟩⟩⟩
    · obtain ⟨r, hr, hresp⟩ := h.responses
      refine ⟨h.fault.trans hf, .inr ⟨h.pos, r, hresp, .inr ⟨hr, ?_⟩⟩⟩
      show (t.seq, t.lastErr) = _
      rw [h.seq, h.lastErr]
      cases req with
      | reset => rw [hinv.reset_not_misused hp]; rfl
      | _ => rfl

/-- Settles O50: the failed event is none of a request that completes, goes on or faults. -/
theorem failedEventIsTheLast : Obligations.FailedEventIsTheLast := by
  unfold Obligations.FailedEventIsTheLast
  intro s t i events ev e hacc hreq hexec ht hev he
  rw [exec_request hreq] at hexec
  obtain ⟨-, rfl⟩ := runRequest_next hexec
  cases hchk : requestFault s i with
  | some f =>
    rw [State.perform_of_fault hchk, State.raiseFault_trace, List.self_eq_append_right] at ht
    subst ht
    cases hev
  | none =>
    obtain ⟨hlast, h⟩ := (State.perform_stage hreq hchk).failed_event ht hev (Event.failure_eq_some_iff.mpr he)
    exact ⟨hlast, h.seq, h.lastErr, h.pos, h.fault.trans hacc.1, h.responses, h.ctrl_unknown⟩

/-- Settles O51: the step is one tick of the request's stage. -/
theorem failedEventEndsTheRunningRequest : Obligations.FailedEventEndsTheRunningRequest := by
  unfold Obligations.FailedEventEndsTheRunningRequest
  intro s t req mis k events ev e hinv hf hp hstep ht hev he
  rw [step_running hf hp] at hstep
  cases hstep
  obtain ⟨hlast, h⟩ := (hinv.stage hp).tick.failed_event ht hev (Event.failure_eq_some_iff.mpr he)
  exact ⟨hlast, h.seq, h.lastErr, h.pos, h.fault.trans hf, h.responses, h.ctrl_unknown⟩

end Sys2Proof.Machine
end

section
/-! PROOFS. Misuse (spec/41_sequencer.md R191): what a request emits is decided by the parameters, the draws and how
many of them were taken, so a misused request emits what it would emit from READY. -/

namespace Sys2Proof.Machine

/-! ### Two states that emit the same -/

/-- The two states have one trace, and nothing that decides a later event differs between them. -/
structure SameEvents (s t : State) : Prop where
  params : t.params = s.params
  trace : t.trace = s.trace
  sendPlan : t.sendPlan = s.sendPlan
  sendCount : t.sendCount = s.sendCount
  busyPlan : t.busyPlan = s.busyPlan
  pollCount : t.pollCount = s.pollCount

/-- Two steps end in the same way, in states that emit the same. -/
inductive SameFlow : Flow → Flow → Prop where
  | go {s t : State} (h : SameEvents s t) : SameFlow (.go s) (.go t)
  | ended {s t : State} (h : SameEvents s t) : SameFlow (.ended s) (.ended t)
  | held {s t : State} (h : SameEvents s t) : SameFlow (.held s) (.held t)

theorem SameFlow.andThen {f f' : Flow} {g g' : State → Flow} (h : SameFlow f f')
    (hg : ∀ s t, SameEvents s t → SameFlow (g s) (g' t)) : SameFlow (f.andThen g) (f'.andThen g') := by
  cases h with
  | go h => exact hg _ _ h
  | ended h => exact .ended h
  | held h => exact .held h

section Operations

variable {s t : State} (h : SameEvents s t)
include h

theorem SameEvents.nextPos : SameEvents s.nextPos t.nextPos :=
  ⟨h.params, h.trace, h.sendPlan, h.sendCount, h.busyPlan, h.pollCount⟩

theorem SameEvents.send (sent : Event) (failed : TransportError → Event) :
    SameFlow (s.send sent failed) (t.send sent failed) := by
  have draw : t.sendResult t.sendCount = s.sendResult s.sendCount := by
    rw [h.sendCount, State.sendResult_congr h.sendPlan]
  cases hr : s.sendResult s.sendCount with
  | none =>
    rw [State.send_ok _ _ hr, State.send_ok _ _ (draw.trans hr)]
    exact .go ⟨h.params, congrArg (· ++ _) h.trace, h.sendPlan, congrArg (· + 1) h.sendCount, h.busyPlan, h.pollCount⟩
  | some e =>
    rw [State.send_err _ _ hr, State.send_err _ _ (draw.trans hr)]
    exact .ended ⟨h.params, congrArg (· ++ _) h.trace, h.sendPlan, congrArg (· + 1) h.sendCount, h.busyPlan,
      h.pollCount⟩

theorem SameEvents.emitData (bs : List Byte) : SameFlow (s.emitData bs) (t.emitData bs) := by
  unfold State.emitData
  split
  · exact .go h
  · exact h.send _ _

theorem SameEvents.emitWaitBusy : SameFlow s.emitWaitBusy t.emitWaitBusy := by
  have level : t.busyLevel t.pollCount = s.busyLevel s.pollCount := by
    rw [h.pollCount, State.busyLevel_congr h.busyPlan]
  cases hb : s.busyLevel s.pollCount with
  | false =>
    rw [State.emitWaitBusy_clear hb, State.emitWaitBusy_clear (level.trans hb)]
    exact .go ⟨h.params, congrArg (· ++ _) h.trace, h.sendPlan, h.sendCount, h.busyPlan, congrArg (· + 1) h.pollCount⟩
  | true =>
    rw [State.emitWaitBusy_busy hb, State.emitWaitBusy_busy (level.trans hb)]
    exact .held ⟨h.params, h.trace, h.sendPlan, h.sendCount, h.busyPlan, congrArg (· + 1) h.pollCount⟩

theorem SameEvents.sendFrame (c : WireCmd) : SameFlow (s.sendFrame c) (t.sendFrame c) := by
  have cmd : SameFlow (s.emitCmd (c.op s.params)) (t.emitCmd (c.op t.params)) := by
    rw [h.params]
    exact h.send _ _
  have data (u v : State) (h : SameEvents u v) :
      SameFlow (u.emitData (c.data u.params)) (v.emitData (c.data v.params)) := by
    rw [h.params]
    exact h.emitData _
  exact (cmd.andThen data).andThen fun u v h =>
    .go ⟨h.params, h.trace, h.sendPlan, h.sendCount, h.busyPlan, h.pollCount⟩

theorem SameEvents.encodeAndSend (c : WireCmd) : SameFlow (s.encodeAndSend c) (t.encodeAndSend c) := by
  cases hc : commandFault s.params c with
  | some f =>
    rw [State.encodeAndSend_fault hc, State.encodeAndSend_fault (h.params ▸ hc)]
    exact .ended ⟨h.params, h.trace, h.sendPlan, h.sendCount, h.busyPlan, h.pollCount⟩
  | none =>
    rw [State.encodeAndSend_send hc, State.encodeAndSend_send (h.params ▸ hc)]
    exact h.sendFrame c

theorem SameEvents.doMicro (m : Micro) : SameFlow (s.doMicro m) (t.doMicro m) := by
  cases m with
  | send c => exact h.encodeAndSend c
  | sendIf c =>
    cases c with
    | none => exact .go h
    | some c => exact h.encodeAndSend c
  | waitBusy => exact h.emitWaitBusy
  | resetPulse | delay _ =>
    exact .go ⟨h.params, congrArg (· ++ _) h.trace, h.sendPlan, h.sendCount, h.busyPlan, h.pollCount⟩
  | setSeq _ | fill _ _ => exact .go ⟨h.params, h.trace, h.sendPlan, h.sendCount, h.busyPlan, h.pollCount⟩
  | pixel px =>
    show SameFlow (.go (s.drawPixel px)) (.go (t.drawPixel px))
    rw [s.drawPixel_frame, t.drawPixel_frame]
    exact .go ⟨h.params, h.trace, h.sendPlan, h.sendCount, h.busyPlan, h.pollCount⟩
  | writeByte p i v =>
    cases p <;> exact .go ⟨h.params, h.trace, h.sendPlan, h.sendCount, h.busyPlan, h.pollCount⟩
  | finish | finishExec | finishReset | finishUpdate _ _ | finishSleep | finishStatus | finishRead _ _ =>
    exact .ended ⟨h.params, h.trace, h.sendPlan, h.sendCount, h.busyPlan, h.pollCount⟩

end Operations

theorem SameEvents.runSteps (ms : List Micro) {s t : State} (h : SameEvents s t) :
    SameEvents (State.runSteps ms s) (State.runSteps ms t) := by
  induction ms generalizing s t with
  | nil => exact ⟨h.params, h.trace, h.sendPlan, h.sendCount, h.busyPlan, h.pollCount⟩
  | cons m ms ih =>
    have hm := h.doMicro m
    cases hs : s.doMicro m <;> cases ht : t.doMicro m <;> rw [hs, ht] at hm <;> cases hm
    case go.go h => rw [State.runSteps_go hs, State.runSteps_go ht]; exact ih h.nextPos
    case ended.ended h => rwa [State.runSteps_ended hs, State.runSteps_ended ht]
    case held.held h => rwa [State.runSteps_held hs, State.runSteps_held ht]

/-- The checks and the events of a request do not depend on the sequencer state. -/
theorem State.perform_sameEvents (s : State) (q : SeqState) (i : Instr) :
    SameEvents (State.perform i { s with seq := q }) (s.perform i) := by
  obtain ⟨hsteps, hchk⟩ := stepsOf_congr (s := s) (t := { s with seq := q }) rfl rfl rfl rfl i
  cases hc : requestFault s i with
  | some f =>
    rw [State.perform_of_fault hc, State.perform_of_fault (hchk.trans hc)]
    exact ⟨rfl, rfl, rfl, rfl, rfl, rfl⟩
  | none =>
    rw [State.perform_of_checked hc, State.perform_of_checked (hchk.trans hc), hsteps]
    exact SameEvents.runSteps _ ⟨rfl, rfl, rfl, rfl, rfl, rfl⟩

/-! ### The misused request -/

/-- The sticky flag of a misused request stays set to its end. -/
theorem State.perform_misuse {s : State} {i : Instr} (hchk : requestFault s i = none) (hmis : legalIn i s.seq = false) :
    (s.perform i).misuse = true := by
  rw [State.perform_of_checked hchk]
  exact State.runSteps_keeps (P := fun u => u.misuse = true) (fun _ _ hu => hu)
    (fun m _ u hu => (doMicro_extends m u).misuse hu) (by simp [hmis])

/-- Outside READY a misused request leaves `st.seq` alone, unless a transport error made it ERRORED. -/
theorem State.perform_seq_of_misused {s : State} {i : Instr} (hreq : i.isRequest = true)
    (hchk : requestFault s i = none) (hmis : legalIn i s.seq = false) :
    (s.perform i).seq = s.seq ∨ ((s.perform i).seq = .errored ∧ ∃ e, (s.perform i).lastErr = some e) := by
  have hstage := State.perform_stage hreq hchk
  rw [hmis] at hstage
  cases hstage with
  | running k hp _ _ h =>
    rcases h.seq with hseq | ⟨hno, -⟩
    · exact .inl hseq
    · cases hno
  | failed e h => exact .inr ⟨h.seq, e, h.lastErr⟩
  | completed h => exact .inl (h.seq.trans (endSeq_misused i s.seq))

/-- Settles O49: the events do not depend on the sequencer state, and misuse suppresses its writes. -/
theorem misusedRequestsEmitTheSameEvents : Obligations.MisusedRequestsEmitTheSameEvents := by
  unfold Obligations.MisusedRequestsEmitTheSameEvents
  intro s i hi hacc hseq hchk
  have hreq : i.isRequest = true := by rcases hi with rfl | rfl | ⟨b, r, rfl⟩ <;> rfl
  have hmis : legalIn i s.seq = false := by
    rcases hi with rfl | rfl | ⟨b, r, rfl⟩ <;> simpa [legalIn] using hseq
  have hacc' : State.accepting { s with seq := .ready } := hacc
  refine ⟨s.perform i, State.perform i { s with seq := .ready }, ?_, ?_, (s.perform_sameEvents .ready i).trace,
    State.perform_misuse hchk hmis, State.perform_seq_of_misused hreq hchk hmis⟩
  · rw [exec_request hreq, runRequest_accepting hacc]
  · rw [exec_request hreq, runRequest_accepting hacc']

end Sys2Proof.Machine
end

section
/-! PROOFS. RESET (spec/41_sequencer.md R192 to R198), after the rules that every completed request shares: the checks
pass, every send is good and busy is clear, so the step list runs to its end and the next state is named whole. -/

namespace Sys2Proof.Machine

open Sys2Proof.Claims

/-! ### The start of a request -/

theorem exec_accepting {s : State} (hacc : s.accepting) {i : Instr} (hreq : i.isRequest = true) :
    exec i s = .next (s.perform i) := by
  rw [exec_request hreq, runRequest_accepting hacc]

/-- A request that fails a check changes the latch alone. -/
theorem exec_faulted {s : State} (hacc : s.accepting) {i : Instr} (hreq : i.isRequest = true) {code : ErrorCode}
    {info : FaultInfo} (hchk : requestFault s i = some { code := code, info := info }) :
    exec i s = .next (faulted code info s) := by
  rw [exec_accepting hacc hreq, State.perform_of_fault hchk]
  rfl

theorem exec_checked {s : State} (hacc : s.accepting) {i : Instr} (hreq : i.isRequest = true)
    (hchk : requestFault s i = none) : exec i s = .next (State.runSteps (stepsOf s i) (s.start i)) := by
  rw [exec_accepting hacc hreq, State.perform_of_checked hchk]

/-- A request that is legal in the block's state starts with only its position changed (R191). -/
theorem State.start_of_legal {s : State} {i : Instr} (h : legalIn i s.seq = true) :
    s.start i = { s with pos := .running i false 0 } := by
  simp [State.start, h]

/-- A misused request starts with the sticky flag set and the controller forgotten (R191; spec/70_reset_and_hazards.md
R342). -/
theorem State.start_of_misused {s : State} {i : Instr} (h : legalIn i s.seq = false) :
    s.start i = { s with misuse := true, pos := .running i true 0, ctrl := s.ctrl.forget } := by
  simp [State.start, h]

/-! ### The checks -/

theorem rangeFault_of_commandFault {p : Params} {c : WireCmd} (h : commandFault p c = none) :
    rangeFault p c = none := by
  unfold commandFault at h
  split at h
  · cases h
  · exact h

theorem stepRangeFault_of_plainSend {p : Params} {m : Micro} (h : m.plainSend p) : stepRangeFault p m = none := by
  rcases h with ⟨c, rfl, hc, -⟩ | ⟨c, rfl, hc, -⟩ | rfl
  · exact rangeFault_of_commandFault hc
  · exact rangeFault_of_commandFault hc
  · rfl

theorem Cfg.legal_iff {p : Params} {cfg : Cfg} : Cfg.legal p cfg = true ↔
    (cfg.cols.toNat % 8 = 0 ∧ cfg.rows.toNat ≤ p.maxGateOutputs ∧ cfg.cols.toNat ≤ p.maxSourceOutputs ∧
      1 ≤ cfg.rows.toNat ∧ 8 ≤ cfg.cols.toNat) ∧
    cfg.dummyLinePeriod.toNat ≤ p.maxDummyLinePeriod ∧ cfgLutOk p cfg = true := by
  simp only [Cfg.legal, geometryOk, Bool.and_eq_true, decide_eq_true_eq, and_assoc]

/-! ### Sends -/

/-- After the first `m` of the next sends, the rest of them are the next ones. -/
theorem State.sendsOk_later {s t : State} {m n : Nat} (h : s.sendsOk (m + n)) (hp : t.sendPlan = s.sendPlan)
    (hc : t.sendCount = s.sendCount + m) : t.sendsOk n := by
  intro k hk
  rw [State.sendResult_congr hp, hc, Nat.add_assoc]
  exact h (m + k) (Nat.add_lt_add_left hk m)

/-! ### RESET -/

/-- The initialisation frames of RESET (R195, R196, R197). -/
def initSteps (p : Params) (cfg : Cfg) : List Micro := initPart1 p cfg ++ (initPart2 p cfg ++ initPart3 cfg)

theorem resetSteps_eq (p : Params) (cfg : Cfg) : resetSteps p cfg =
    .resetPulse :: .send (.fixed .softReset) :: .waitBusy :: .setSeq .initialized ::
      (initSteps p cfg ++ [.finishReset]) := by
  simp [resetSteps, initSteps]

theorem initSteps_frames (p : Params) (cfg : Cfg) : (initSteps p cfg).flatMap (Micro.frame p) = initEvents p cfg := by
  cases hg : p.initGateVoltage <;> cases hv : p.initSourceVoltage <;> cases hb : p.initBorder <;> cases hl : cfg.lut <;>
    simp [initSteps, initPart1, initPart2, initPart3, initEvents, optionalEvents, Micro.frame, Micro.command,
      frameEvents, WireCmd.op, WireCmd.kind, WireCmd.data, Command.kind, Command.data, BufCommand.kind, BufCommand.buf, Opc.byte,
      Cfg.width, lo8, hi8, hg, hv, hb, hl]

/-- On a legal configuration every initialisation command is in its range. -/
theorem initSteps_plain {p : Params} {cfg : Cfg} (h : Cfg.legal p cfg = true) :
    ∀ m ∈ initSteps p cfg, m.plainSend p := by
  obtain ⟨⟨-, hrows, hcols, -, hcols8⟩, hdummy, hlut⟩ := Cfg.legal_iff.mp h
  have send (c : WireCmd) (hx : isExtra c = false) (hr : wireInRange p c = true) (hl : isLongOp c.kind = false) :
      (Micro.send c).plainSend p := .inl ⟨c, rfl, commandFault_of_inRange (.inl hx) hr, hl⟩
  have sendIf {α : Type} (o : Option α) (c : α → WireCmd) (hx : ∀ a, isExtra (c a) = false)
      (hr : ∀ a, o = some a → wireInRange p (c a) = true) (hl : ∀ a, isLongOp (c a).kind = false) :
      (Micro.sendIf (o.map c)).plainSend p := by
    cases o with
    | none => exact .inr (.inr rfl)
    | some a => exact .inr (.inl ⟨c a, rfl, commandFault_of_inRange (.inl (hx a)) (hr a rfl), hl a⟩)
  have hxend : xInRange p (BitVec.ofNat 8 (cfg.width / 8 - 1)) = true := by
    have : cfg.width = cfg.cols.toNat := rfl
    rw [xInRange_iff, BitVec.toNat_ofNat]
    omega
  have hx0 : xInRange p 0 = true := by
    rw [xInRange_iff]
    simp
    omega
  intro m hm
  simp only [initSteps, initPart1, initPart2, initPart3, List.cons_append, List.nil_append, List.mem_cons,
    List.not_mem_nil, or_false] at hm
  rcases hm with rfl | rfl | rfl | rfl | rfl | rfl | rfl | rfl | rfl | rfl | rfl | rfl | rfl
  · exact send _ rfl rfl rfl
  · exact send _ rfl rfl rfl
  · exact send _ rfl (yInRange_iff.mpr hrows) rfl
  · exact sendIf _ _ (fun _ => rfl) (fun _ _ => rfl) fun _ => rfl
  · exact sendIf _ _ (fun _ => rfl) (fun _ _ => rfl) fun _ => rfl
  · exact send _ rfl (dummyLinePeriod_inRange_iff.mpr hdummy) rfl
  · exact send _ rfl rfl rfl
  · exact send _ rfl rfl rfl
  · exact sendIf _ _ (fun _ => rfl) (fun _ _ => rfl) fun _ => rfl
  · refine sendIf _ _ (fun _ => rfl) (fun l hl => ?_) fun _ => rfl
    simp only [cfgLutOk, hl] at hlut
    exact hlut
  · exact send _ rfl rfl rfl
  · exact send _ rfl (startEndXPosition_inRange_iff.mpr ⟨xInRange_iff.mp hx0, xInRange_iff.mp hxend⟩) rfl
  · exact send _ rfl (startEndYPosition_inRange_iff.mpr ⟨Nat.zero_le _, hrows⟩) rfl

theorem reset_checked {s : State} (h : Cfg.legal s.params s.cfg = true) : requestFault s .reset = none := by
  simp only [requestFault, ownFault, List.findSome?_eq_none_iff, stepsOf, resetSteps_eq, List.mem_cons, List.mem_append,
    List.not_mem_nil, or_false]
  rintro m (rfl | rfl | rfl | rfl | hm | rfl)
  · rfl
  · rfl
  · rfl
  · rfl
  · exact stepRangeFault_of_plainSend (initSteps_plain h m hm)
  · rfl

/-- RESET up to its busy-wait: the pulse and the soft reset (R193, R194). -/
theorem reset_to_wait {s : State} (h0 : s.sendResult s.sendCount = none) :
    State.runSteps (stepsOf s .reset) (s.start .reset) =
      State.runSteps (.waitBusy :: .setSeq .initialized :: (initSteps s.params s.cfg ++ [.finishReset])) { s with
        pos := .running .reset false 2
        trace := s.trace ++ [.resetPulse, .cmd s.params.opc.softReset]
        sendCount := s.sendCount + 1
        ctrl := { s.ctrl.onFrame with longOp := true } } := by
  rw [stepsOf, resetSteps_eq, State.start_of_legal rfl, State.runSteps_resetPulse, State.runSteps_send]
  · rw [Ctrl.afterFrame_of_long rfl, List.append_assoc]
    rfl
  · exact commandFault_of_inRange (.inl rfl) rfl
  · exact h0
  · exact fun hd => absurd rfl hd

/-- Settles O20: the run stops at the busy-wait, the third step of the list. -/
theorem resetHoldsAtTheBusyWait : Obligations.ResetHoldsAtTheBusyWait := by
  unfold Obligations.ResetHoldsAtTheBusyWait
  intro s hacc hlegal hbusy hs
  rw [exec_checked hacc rfl (reset_checked hlegal), reset_to_wait (hs 0 (by omega)), State.runSteps_waitBusy_busy]
  exact hbusy

/-- Settles O18: past the busy-wait no long operation is pending, and the initialisation is one block of frames. -/
theorem resetCompletes : Obligations.ResetCompletes := by
  unfold Obligations.ResetCompletes
  intro s hacc hlegal hclear hs
  rw [exec_checked hacc rfl (reset_checked hlegal), reset_to_wait (hs 0 (by omega)), State.runSteps_waitBusy_clear,
    State.runSteps_setSeq, State.runSteps_plainSends, State.runSteps_ended rfl, initSteps_frames]
  · obtain ⟨-, hidle⟩ := hacc
    cases hlong : s.ctrl.longOp <;> cases hlut : s.cfg.lut <;>
      simp [resetDone, State.finishReset, State.finish, State.setSeq, Pos.advance, Pos.misused, Ctrl.afterReset,
        Ctrl.afterWait, Ctrl.onFrame, Ctrl.forget, hlong, hlut, hidle, Nat.add_assoc]
  · rfl
  · exact initSteps_plain hlegal
  · rw [initSteps_frames]
    exact State.sendsOk_later hs rfl rfl
  · exact hclear

/-- Settles O19: the completed RESET at the default parameters, whose 18 initialisation events are written out. -/
theorem resetTraceHasTwentyOneEvents : Obligations.ResetTraceHasTwentyOneEvents := by
  unfold Obligations.ResetTraceHasTwentyOneEvents
  intro s hacc hparams hlegal hlut hclear hs
  have hlen : (initEvents s.params s.cfg).length = 18 := by
    rw [hparams, initEvents, hlut]
    rfl
  refine ⟨_, resetCompletes s hacc hlegal hclear (by rw [hlen]; exact hs), ?_⟩
  simp only [resetDone]
  rw [hparams, initEvents, hlut]
  rfl

end Sys2Proof.Machine
end

section
/-! PROOFS. UPDATE and DEEP_SLEEP (spec/41_sequencer.md R199 to R203), from READY and misused: the commands of the list
are sent to a controller that may still be busy, and the last step names the next state. -/

namespace Sys2Proof.Machine

open Sys2Proof.Claims

/-! ### A block of commands -/

/-- A block of commands that begin no long operation, sent whole while the controller may still be busy. -/
theorem State.runSteps_commands (cs : List WireCmd) (rest : List Micro) (s : State)
    (hc : ∀ c ∈ cs, commandFault s.params c = none ∧ isLongOp c.kind = false)
    (hs : s.sendsOk (cs.flatMap fun c => frameEvents (c.op s.params) (c.data s.params)).length) :
    State.runSteps (cs.map Micro.send ++ rest) s = State.runSteps rest { s with
      trace := s.trace ++ cs.flatMap fun c => frameEvents (c.op s.params) (c.data s.params)
      sendCount := s.sendCount + (cs.flatMap fun c => frameEvents (c.op s.params) (c.data s.params)).length
      ctrl := if cs = [] then s.ctrl else s.ctrl.onFrame
      pos := s.pos.advance cs.length } := by
  induction cs generalizing s with
  | nil => simp
  | cons c cs ih =>
    rw [List.flatMap_cons, List.length_append] at hs
    obtain ⟨hok, hlong⟩ := hc c (List.mem_cons_self ..)
    have h0 : s.sendResult s.sendCount = none := hs 0 (by simp [frameEvents])
    have h1 : c.data s.params ≠ [] → s.sendResult (s.sendCount + 1) = none := fun hd => hs 1 (by
      simp only [frameEvents, List.isEmpty_iff, hd, if_false, List.length_cons]
      omega)
    rw [List.map_cons, List.cons_append, State.runSteps_send hok h0 h1, Ctrl.afterFrame_of_not_long hlong, ih]
    · simp [Pos.advance_advance, Nat.add_assoc, Nat.add_comm 1]
    · exact fun c' h' => hc c' (List.mem_cons_of_mem _ h')
    · exact State.sendsOk_later hs rfl rfl

/-! ### UPDATE -/

theorem planeLen_pos {p : Params} {cfg : Cfg} (h : Cfg.legal p cfg = true) : 0 < cfg.planeLen := by
  have hgrid := Cfg.legal_geometry h
  rw [planeLen_of_nativeGrid hgrid]
  obtain ⟨-, hcols, hrows⟩ := hgrid
  exact Nat.mul_pos hrows (Nat.div_pos hcols (by decide))

/-- The commands of UPDATE before the one that begins the display update (R199). -/
def updateCommands (p : Params) (black red : List Byte) : List WireCmd :=
  [.fixed (.xAddress 0), .fixed (.yAddress 0), .buffer (.writeBlackData black), .fixed (.xAddress 0),
   .fixed (.yAddress 0), .buffer (.writeRedData red), .fixed (.updateDisplayOption2 p.updateOption2Value)]

theorem updateSteps_eq (p : Params) (black red : List Byte) : updateSteps p black red =
    .setSeq .updating :: ((updateCommands p black red).map .send ++
      [.send (.fixed .updateDisplay), .delay p.updateSettleMs, .waitBusy, .finishUpdate black red]) := rfl

/-- On a legal configuration the zero addresses are in their ranges, and the buffers have none. -/
theorem updateCommands_ok {p : Params} {cfg : Cfg} (h : Cfg.legal p cfg = true) (black red : List Byte) :
    ∀ c ∈ updateCommands p black red, commandFault p c = none ∧ isLongOp c.kind = false := by
  obtain ⟨⟨-, -, hcols, -, hcols8⟩, -⟩ := Cfg.legal_iff.mp h
  have hx : commandFault p (.fixed (.xAddress 0)) = none := by
    refine commandFault_of_inRange (.inl rfl) (xInRange_iff.mpr ?_)
    show 0 + 1 ≤ p.maxSourceOutputs / 8
    omega
  have hy : commandFault p (.fixed (.yAddress 0)) = none :=
    commandFault_of_inRange (.inl rfl) (show yInRange p 0 = true from yInRange_iff.mpr (Nat.zero_le _))
  intro c hc
  simp only [updateCommands, List.mem_cons, List.not_mem_nil, or_false] at hc
  rcases hc with rfl | rfl | rfl | rfl | rfl | rfl | rfl
  · exact ⟨hx, rfl⟩
  · exact ⟨hy, rfl⟩
  · exact ⟨commandFault_of_inRange (.inl rfl) rfl, rfl⟩
  · exact ⟨hx, rfl⟩
  · exact ⟨hy, rfl⟩
  · exact ⟨commandFault_of_inRange (.inl rfl) rfl, rfl⟩
  · exact ⟨commandFault_of_inRange (.inl rfl) rfl, rfl⟩

theorem updateSteps_checked {p : Params} {cfg : Cfg} (h : Cfg.legal p cfg = true) (black red : List Byte) :
    (updateSteps p black red).findSome? (stepRangeFault p) = none := by
  simp only [List.findSome?_eq_none_iff, updateSteps_eq, List.mem_cons, List.mem_append, List.mem_map,
    List.not_mem_nil, or_false]
  rintro m (rfl | ⟨c, hc, rfl⟩ | rfl | rfl | rfl | rfl)
  · rfl
  · exact rangeFault_of_commandFault (updateCommands_ok h black red c hc).1
  · rfl
  · rfl
  · rfl
  · rfl

/-- UPDATE of buffers that are not empty, run to its last step: the 17 events (R202). -/
theorem State.runSteps_updateSteps {s : State} {black red : List Byte} (hlegal : Cfg.legal s.params s.cfg = true)
    (hb : black ≠ []) (hr : red ≠ []) (hclear : s.busyClear) (hs : s.sendsOk 15) :
    State.runSteps (updateSteps s.params black red) s = State.finishUpdate black red { s with
      pos := s.pos.advance 11
      seq := if s.pos.misused then s.seq else .updating
      busyIn := false
      pollCount := s.pollCount + 1
      sendCount := s.sendCount + 15
      trace := s.trace ++ updateEvents s.params black red
      ctrl := { s.ctrl.onFrame with longOp := false } } := by
  have hframes : (updateCommands s.params black red).flatMap (fun c => frameEvents (c.op s.params) (c.data s.params)) =
      (updateEvents s.params black red).take 14 := by
    simp [updateCommands, updateEvents, frameEvents, WireCmd.op, WireCmd.kind, WireCmd.data, Command.kind, Command.data,
      BufCommand.kind, BufCommand.buf, Opc.byte, hb, hr, lo8, hi8]
  rw [updateSteps_eq, State.runSteps_setSeq, State.runSteps_commands, hframes, State.runSteps_send,
    State.runSteps_delay, State.runSteps_waitBusy_clear, State.runSteps_ended rfl]
  · rw [Ctrl.afterFrame_of_long rfl]
    simp [updateCommands, updateEvents, frameEvents, WireCmd.op, WireCmd.kind, WireCmd.data, Command.kind, Command.data,
      Opc.byte, Pos.advance_advance, Ctrl.afterWait]
  · exact hclear
  · exact commandFault_of_inRange (.inl rfl) rfl
  · exact hs 14 (by omega)
  · exact fun hd => absurd rfl hd
  · exact updateCommands_ok hlegal black red
  · rw [hframes]
    exact fun k hk => hs k (Nat.lt_succ_of_lt hk)

theorem Ctrl.afterUpdate_longOp (c : Ctrl) (b : Bool) (black red : List Byte) :
    Ctrl.afterUpdate black red { c with longOp := b } = { c.afterUpdate black red with longOp := b } := by
  unfold Ctrl.afterUpdate
  split <;> rfl

/-- A request with UPDATE's list, misused or not (R191, R199). -/
theorem updateRun_done {s : State} (hacc : s.accepting) (hlegal : Cfg.legal s.params s.cfg = true)
    (hclear : s.busyClear) (hs : s.sendsOk 15) {i : Instr} (hi : isUpdate i) {black red : List Byte} (hb : black ≠ [])
    (hr : red ≠ []) :
    State.runSteps (updateSteps s.params black red) (s.start i) = updateDone black red s := by
  have hready : legalIn i s.seq = (s.seq == .ready) := by rcases hi with ⟨b, r, rfl⟩ | rfl <;> rfl
  have hrun := State.runSteps_updateSteps (s := s.start i) hlegal hb hr hclear hs
  obtain ⟨-, hidle⟩ := hacc
  refine hrun.trans ?_
  by_cases hq : s.seq = .ready
  · rw [State.start_of_legal (hready.trans (by simp [hq]))]
    simp [updateDone, State.finishUpdate, State.finish, State.setSeq, Pos.advance, Pos.misused, hq, hidle,
      Ctrl.afterUpdate_longOp]
  · rw [State.start_of_misused (hready.trans (by simp [hq]))]
    simp [updateDone, State.finishUpdate, State.finish, State.setSeq, Pos.advance, Pos.misused, hq, hidle,
      Ctrl.afterUpdate_longOp]

theorem update_checked {s : State} (hlegal : Cfg.legal s.params s.cfg = true) {black red : List Byte}
    (hlen : ¬ (black.length < s.cfg.planeLen ∨ red.length < s.cfg.planeLen)) :
    requestFault s (.update black red) = none := by
  simp only [requestFault, ownFault, shortBufferFault, hlen, if_false]
  exact updateSteps_checked hlegal _ _

/-- The part of a long enough buffer that is sent is not empty. -/
theorem take_planeLen_ne_nil {s : State} (hlegal : Cfg.legal s.params s.cfg = true) {buf : List Byte}
    (hlen : s.cfg.planeLen ≤ buf.length) : buf.take s.cfg.planeLen ≠ [] := by
  have hpos := planeLen_pos hlegal
  rw [ne_eq, List.take_eq_nil_iff, ← List.length_eq_zero_iff]
  omega

/-- Settles O21: the checks pass, and what is sent of each buffer is not empty. -/
theorem updateCompletes : Obligations.UpdateCompletes := by
  unfold Obligations.UpdateCompletes
  intro s black red hacc hlegal hb hr hclear hs
  rw [exec_checked hacc rfl (update_checked hlegal (by omega)), stepsOf,
    updateRun_done hacc hlegal hclear hs (.inl ⟨black, red, rfl⟩) (take_planeLen_ne_nil hlegal hb)
      (take_planeLen_ne_nil hlegal hr)]

/-- Settles O22: the length check comes before the first step, and the completed UPDATE has the events. -/
theorem updateChecksItsBuffers : Obligations.UpdateChecksItsBuffers := by
  unfold Obligations.UpdateChecksItsBuffers
  intro s black red hacc
  refine ⟨fun hshort => ?_, fun hlen hlegal hclear hs => ?_⟩
  · refine exec_faulted hacc rfl ?_
    simp only [requestFault, ownFault, shortBufferFault, hshort, if_true]
  · have hb : s.cfg.planeLen ≤ black.length := by omega
    have hr : s.cfg.planeLen ≤ red.length := by omega
    exact ⟨_, _, _, updateCompletes s black red hacc hlegal hb hr hclear hs, rfl, rfl, List.length_take_of_le hb, rfl,
      List.length_take_of_le hr⟩

/-! ### DEEP_SLEEP -/

theorem preserveRam_frame (p : Params) :
    frameEvents (WireCmd.op p (.fixed (.deepSleepMode .preserveRam)))
      (WireCmd.data p (.fixed (.deepSleepMode .preserveRam))) =
    [.cmd p.opc.deepSleepMode, .data [p.sleepCode.preserveRam]] := rfl

/-- Settles O24: one frame, then the last step, from READY and misused. -/
theorem deepSleepCompletes : Obligations.DeepSleepCompletes := by
  unfold Obligations.DeepSleepCompletes
  intro s hacc hs
  have hready : legalIn .deepSleep s.seq = (s.seq == .ready) := rfl
  rw [exec_checked hacc rfl rfl, stepsOf, deepSleepSteps, State.runSteps_send, State.runSteps_ended rfl]
  · obtain ⟨-, hidle⟩ := hacc
    rw [Ctrl.afterFrame_of_not_long rfl]
    by_cases hq : s.seq = .ready
    · rw [State.start_of_legal (hready.trans (by simp [hq]))]
      simp [State.finishSleep, State.finish, State.setSeq, Pos.advance, Pos.misused, preserveRam_frame, hq, hidle]
    · rw [State.start_of_misused (hready.trans (by simp [hq]))]
      simp [State.finishSleep, State.finish, State.setSeq, Pos.advance, Pos.misused, preserveRam_frame, hq, hidle]
  · exact commandFault_of_inRange (.inl rfl) rfl
  · exact hs 0 (by omega)
  · exact fun _ => hs 1 (by omega)

end Sys2Proof.Machine
end

section
/-! PROOFS. EXEC, EXEC_BUF, WAIT and STATUS (spec/41_sequencer.md R205 to R208, R212), and the two steps of the machine
around a request: the one that takes it, and the one that polls in its busy-wait. -/

namespace Sys2Proof.Machine

open Sys2Proof.Claims

/-! ### EXEC and EXEC_BUF -/

theorem commandFault_buffer (p : Params) (c : BufCommand) : commandFault p (.buffer c) = rangeFault p (.buffer c) := by
  have hx : isExtra (.buffer c) = false := by cases c <;> rfl
  rw [commandFault, unimplementedFault_of_admitted (.inl hx)]

/-- The checks of EXEC are those of its command, admission first (R190, R293). -/
theorem requestFault_exec (s : State) (c : Command) : requestFault s (.exec c) = commandFault s.params (.fixed c) := by
  simp only [requestFault, ownFault, commandFault, stepsOf, execSteps, stepRangeFault, Micro.command,
    List.findSome?_cons, List.findSome?_nil]
  cases unimplementedFault s.params (.fixed c) with
  | some f => rfl
  | none => cases rangeFault s.params (.fixed c) <;> rfl

theorem requestFault_execBuf (s : State) (c : BufCommand) :
    requestFault s (.execBuf c) = commandFault s.params (.buffer c) := by
  rw [commandFault_buffer]
  simp only [requestFault, ownFault, stepsOf, execBufSteps, stepRangeFault, Micro.command, List.findSome?_cons,
    List.findSome?_nil]
  cases rangeFault s.params (.buffer c) <;> rfl

/-- The list of EXEC and EXEC_BUF, run from the request's start (R206, R207). -/
theorem execRun_done {s : State} {c : WireCmd} {i : Instr} (hi : legalIn i s.seq = true) (hacc : s.accepting)
    (hc : commandFault s.params c = none) (hs : s.sendsOk 2) :
    State.runSteps [.send c, .finishExec] (s.start i) =
      { s with lastErr := none
               trace := s.trace ++ frameEvents (c.op s.params) (c.data s.params)
               sendCount := s.sendCount + (frameEvents (c.op s.params) (c.data s.params)).length
               responses := s.responses ++ [.ok]
               ctrl := { s.ctrl.onFrame with
                 longOp := s.ctrl.longOp || c.kind == .softReset || c.kind == .updateDisplay } } := by
  obtain ⟨-, hidle⟩ := hacc
  rw [State.start_of_legal hi, State.runSteps_send, State.runSteps_ended rfl]
  · simp [State.finishExec, State.finish, Ctrl.afterFrame, isLongOp, Bool.or_assoc, hidle]
  · exact hc
  · exact hs 0 (by omega)
  · exact fun _ => hs 1 (by omega)

/-- Settles O25: both lists are the command and the last step, and the request's checks are the command's. -/
theorem execCompletes : Obligations.ExecCompletes := by
  unfold Obligations.ExecCompletes
  rintro s c i (⟨f, rfl, rfl⟩ | ⟨b, rfl, rfl⟩) hacc hc hs
  · rw [exec_checked hacc rfl ((requestFault_exec s f).trans hc)]
    exact congrArg _ (execRun_done rfl hacc hc hs)
  · rw [exec_checked hacc rfl ((requestFault_execBuf s b).trans hc)]
    exact congrArg _ (execRun_done rfl hacc hc hs)

/-- Settles O26: the command's checks in their order, admission before range. -/
theorem execFaultsInPriorityOrder : Obligations.ExecFaultsInPriorityOrder := by
  unfold Obligations.ExecFaultsInPriorityOrder
  intro s c hacc
  refine ⟨fun hx ha => ?_, fun ha hr => ?_, fun buf hstrict hlen => ?_⟩
  · refine exec_faulted hacc rfl ((requestFault_exec s c).trans (commandFault_of_unadmitted ?_ ha))
    simpa [isExtra, WireCmd.kind] using hx
  · refine exec_faulted hacc rfl ((requestFault_exec s c).trans (commandFault_of_outOfRange ?_ ?_))
    · simpa [Admitted, isExtra, WireCmd.kind] using ha
    · simp [wireInRange, hr]
  · refine exec_faulted hacc rfl ((requestFault_execBuf s _).trans (commandFault_of_outOfRange (.inl rfl) ?_))
    exact fun hr => hlen (writeLut_inRange_iff.mp hr hstrict)

/-! ### WAIT and STATUS -/

/-- Settles O27: the busy-wait is the first step, and the response the second. -/
theorem waitCompletesOrHolds : Obligations.WaitCompletesOrHolds := by
  unfold Obligations.WaitCompletesOrHolds
  intro s hacc
  rw [exec_checked hacc rfl rfl, stepsOf, waitSteps, State.start_of_legal rfl]
  refine ⟨fun hclear => ?_, fun hbusy => ?_⟩
  · rw [State.runSteps_waitBusy_clear, State.runSteps_ended rfl]
    · obtain ⟨-, hidle⟩ := hacc
      simp [State.finish, Ctrl.afterWait, hidle]
    · exact hclear
  · rw [State.runSteps_waitBusy_busy]
    exact hbusy

/-- Settles O28: STATUS is its last step alone. -/
theorem statusReportsTheStatus : Obligations.StatusReportsTheStatus := by
  unfold Obligations.StatusReportsTheStatus
  intro s hacc
  rw [exec_checked hacc rfl rfl, stepsOf, statusSteps, State.start_of_legal rfl, State.runSteps_ended rfl]
  obtain ⟨-, hidle⟩ := hacc
  simp [State.finishStatus, State.finish, hidle]

/-! ### The step of an idle block, and of a held one -/

/-- Settles O5: the idle block fetches the request and takes its bytes. -/
theorem stepRunsTheDecodedRequest : Obligations.StepRunsTheDecodedRequest := by
  unfold Obligations.StepRunsTheDecodedRequest
  intro s bytes rest later i hacc hin hd
  obtain ⟨hfault, hidle⟩ := hacc
  simp only [step, hfault, hidle, State.fetch, hin, hd]
  rfl

/-- `s` after `n` polls that saw busy set. -/
def State.polledBusy (n : Nat) (s : State) : State :=
  { s with busyIn := if n = 0 then s.busyIn else true, pollCount := s.pollCount + n }

section Held

variable {s : State} {req : Instr} {mis : Bool} {k : Nat} (hf : s.fault = none) (hp : s.pos = .running req mis k)
  (hm : (stepsOf s req)[k]? = some .waitBusy)
include hf hp hm

theorem step_waitBusy : step s = .next s.emitWaitBusy.settle := by
  rw [step_running hf hp, State.tick_running hp hm]
  rfl

/-- A held busy-wait that polls `n` times and sees busy set each time shows nothing but the polls (R205). -/
theorem stepN_polledBusy {n : Nat} (hbusy : ∀ j, j < n → s.busyLevel (s.pollCount + j) = true) :
    stepN n s = .next (s.polledBusy n) := by
  induction n with
  | zero => rfl
  | succ n ih =>
    have hn := ih fun j hj => hbusy j (Nat.lt_succ_of_lt hj)
    have hlevel : (s.polledBusy n).busyLevel (s.polledBusy n).pollCount = true := hbusy n (Nat.lt_succ_self n)
    have hsteps := (stepsOf_congr (s := s) (t := s.polledBusy n) rfl rfl rfl rfl req).1
    have hstep := step_waitBusy (s := s.polledBusy n) hf hp (hsteps ▸ hm)
    rw [State.emitWaitBusy_busy hlevel] at hstep
    exact stepN_add hn (stepN_succ hstep 0)

/-- The step after them that sees busy clear records WAIT_BUSY and goes on. -/
theorem stepN_polledClear {n : Nat} (hbusy : ∀ j, j < n → s.busyLevel (s.pollCount + j) = true)
    (hclear : s.busyLevel (s.pollCount + n) = false) :
    stepN (n + 1) s = .next { s with
      busyIn := false
      pollCount := s.pollCount + (n + 1)
      pos := .running req mis (k + 1)
      trace := s.trace ++ [.waitBusy]
      ctrl := { s.ctrl with longOp := false } } := by
  have hsteps := (stepsOf_congr (s := s) (t := s.polledBusy n) rfl rfl rfl rfl req).1
  have hlevel : (s.polledBusy n).busyLevel (s.polledBusy n).pollCount = false := hclear
  have hstep := step_waitBusy (s := s.polledBusy n) hf hp (hsteps ▸ hm)
  rw [State.emitWaitBusy_clear hlevel, Flow.settle, State.nextPos_eq] at hstep
  rw [stepN_add (stepN_polledBusy hf hp hm hbusy) (stepN_succ hstep 0)]
  simp [State.polledBusy, hp, Pos.advance, Ctrl.afterWait, Nat.add_assoc]

end Held

/-- Settles O29: the polls that see busy set, and the one that does not. -/
theorem busyWaitHoldsUntilBusyClears : Obligations.BusyWaitHoldsUntilBusyClears := by
  unfold Obligations.BusyWaitHoldsUntilBusyClears
  intro s req mis k n hf hp hm hbusy
  refine ⟨fun hn => ?_, stepN_polledClear hf hp hm hbusy⟩
  rw [stepN_polledBusy hf hp hm hbusy, State.polledBusy, if_neg (Nat.ne_of_gt hn)]

end Sys2Proof.Machine
end

section
/-! PROOFS. The framebuffer requests (spec/42_framebuffer.md R231 to R245): each is the named effects of its step list,
one after another, and an OK response; what the planes then read follows from what each effect does to them. -/

namespace Sys2Proof.Machine

open Sys2Proof.Claims

/-! ### GFX_UPDATE -/

/-- On a legal configuration a plane has bytes to send. -/
theorem planeBytes_ne_nil {s : State} (hlegal : Cfg.legal s.params s.cfg = true) (p : Plane) :
    s.planeBytes p ≠ [] := by
  have hpos := planeLen_pos hlegal
  rw [ne_eq, ← List.length_eq_zero_iff, State.planeBytes_length]
  omega

theorem take_planeBytes (s : State) (p : Plane) : (s.planeBytes p).take s.cfg.planeLen = s.planeBytes p :=
  List.take_of_length_le (s.planeBytes_length p).le

theorem gfxUpdate_checked {s : State} (hlegal : Cfg.legal s.params s.cfg = true) :
    requestFault s .gfxUpdate = none :=
  updateSteps_checked hlegal _ _

/-- Settles O23: GFX_UPDATE runs UPDATE's list on the planes' bytes, and UPDATE of these sends them whole. -/
theorem gfxUpdateSendsThePlanes : Obligations.GfxUpdateSendsThePlanes := by
  unfold Obligations.GfxUpdateSendsThePlanes
  intro s hacc hlegal hclear hs
  have hgfx : exec .gfxUpdate s = .next (updateDone (s.planeBytes .black) (s.planeBytes .red) s) := by
    rw [exec_checked hacc rfl (gfxUpdate_checked hlegal), stepsOf,
      updateRun_done hacc hlegal hclear hs (.inr rfl) (planeBytes_ne_nil hlegal .black)
        (planeBytes_ne_nil hlegal .red)]
  refine ⟨hgfx, ?_⟩
  have hlen (p : Plane) : s.cfg.planeLen ≤ (s.planeBytes p).length := (s.planeBytes_length p).ge
  rw [hgfx, updateCompletes s _ _ hacc hlegal (hlen .black) (hlen .red) hclear hs, take_planeBytes, take_planeBytes]

/-! ### The requests on the planes, run -/

/-- CLEAR is its fill, then the response (R231). -/
theorem exec_clear {s : State} (hacc : s.accepting) (c : Color) :
    exec (.clear c) s = .next ((s.fillPlanes (fillPattern c).1 (fillPattern c).2).finish .ok) := by
  rw [exec_checked hacc rfl (clear_checked s c), State.start_of_legal rfl]
  rfl

/-- The only check of PLANE_WRITE is its index (R244). -/
theorem requestFault_planeWrite (s : State) (p : Plane) (idx : Half) (v : Byte) :
    requestFault s (.planeWrite p idx v) = planeIndexFault s.cfg idx := by
  rw [requestFault, ownFault]
  cases planeIndexFault s.cfg idx <;> rfl

/-- The only check of PLANE_READ is its index (R245). -/
theorem requestFault_planeRead (s : State) (p : Plane) (idx : Half) :
    requestFault s (.planeRead p idx) = planeIndexFault s.cfg idx := by
  rw [requestFault, ownFault]
  cases planeIndexFault s.cfg idx <;> rfl

theorem planeIndexFault_inside {cfg : Cfg} {idx : Half} (h : idx.toNat < cfg.planeLen) :
    planeIndexFault cfg idx = none := if_pos h

theorem planeIndexFault_outside {cfg : Cfg} {idx : Half} (h : cfg.planeLen ≤ idx.toNat) :
    planeIndexFault cfg idx = some { code := .argOutOfRange, info := .planeIndex idx } := if_neg (Nat.not_lt.mpr h)

/-- PLANE_WRITE inside the plane is its write, then the response (R244). -/
theorem exec_planeWrite {s : State} (hacc : s.accepting) (p : Plane) {idx : Half} (v : Byte)
    (h : idx.toNat < s.cfg.planeLen) :
    exec (.planeWrite p idx v) s = .next ((s.writeByte p idx.toNat v).finish .ok) := by
  rw [exec_checked hacc rfl ((requestFault_planeWrite s p idx v).trans (planeIndexFault_inside h)),
    State.start_of_legal rfl]
  cases p <;> rfl

/-- A pixel does not look at the position or the responses. -/
theorem State.drawPixel_withPosResponses (s : State) (p : Pos) (rs : List Response) (px : Pixel) :
    State.drawPixel px { s with pos := p, responses := rs } =
      { s.drawPixel px with pos := p, responses := rs } := by
  by_cases hout : outside s.cfg (coordOf s.params px.x) (coordOf s.params px.y) = true
  · simp [State.drawPixel, hout]
  · simp only [State.drawPixel, hout]
    rfl

/-- The pixels of a list drawn in order (R242). -/
def State.drawPixels (pxs : List Pixel) (s : State) : State := pxs.foldl (fun u px => u.drawPixel px) s

@[simp] theorem State.drawPixels_nil (s : State) : s.drawPixels [] = s := rfl

@[simp] theorem State.drawPixels_cons (px : Pixel) (pxs : List Pixel) (s : State) :
    s.drawPixels (px :: pxs) = (s.drawPixel px).drawPixels pxs := rfl

theorem State.drawPixels_withPosResponses (s : State) (p : Pos) (rs : List Response) (pxs : List Pixel) :
    State.drawPixels pxs { s with pos := p, responses := rs } =
      { s.drawPixels pxs with pos := p, responses := rs } := by
  induction pxs generalizing s with
  | nil => rfl
  | cons px pxs ih => rw [State.drawPixels_cons, State.drawPixel_withPosResponses, ih, State.drawPixels_cons]

/-- Pixels change the planes alone. -/
theorem State.drawPixels_frame (pxs : List Pixel) (s : State) :
    s.drawPixels pxs = { s with black := (s.drawPixels pxs).black, red := (s.drawPixels pxs).red } := by
  induction pxs generalizing s with
  | nil => rfl
  | cons px pxs ih =>
    rw [State.drawPixels_cons, ih, s.drawPixel_frame px]

@[simp] theorem State.drawPixels_fault (pxs : List Pixel) (s : State) : (s.drawPixels pxs).fault = s.fault := by
  rw [State.drawPixels_frame]

@[simp] theorem State.drawPixels_responses (pxs : List Pixel) (s : State) :
    (s.drawPixels pxs).responses = s.responses := by
  rw [State.drawPixels_frame]

theorem State.drawPixels_finish (pxs : List Pixel) (r : Response) (s : State) :
    (s.finish r).drawPixels pxs = (s.drawPixels pxs).finish r := by
  refine (State.drawPixels_withPosResponses s .idle (s.responses ++ [r]) pxs).trans ?_
  rw [← State.drawPixels_responses pxs s]
  rfl

/-- The list of DRAW_PIXELS, run from any position: the pixels in order, then the response (R242). -/
theorem State.runSteps_drawPixelsSteps (pxs : List Pixel) (s : State) (p : Pos) :
    State.runSteps (drawPixelsSteps pxs) { s with pos := p } = (s.drawPixels pxs).finish .ok := by
  induction pxs generalizing s p with
  | nil => rfl
  | cons px pxs ih =>
    have hgo : State.doMicro (.pixel px) { s with pos := p } = .go { s.drawPixel px with pos := p } := by
      refine congrArg Flow.go ((s.drawPixel_withPosResponses p s.responses px).trans ?_)
      rw [← s.drawPixel_responses px]
    refine (State.runSteps_go hgo).trans ?_
    rw [State.nextPos_eq]
    exact ih (s.drawPixel px) (p.advance 1)

theorem exec_drawPixels {s : State} (hacc : s.accepting) (pxs : List Pixel) :
    exec (.drawPixels pxs) s = .next ((s.drawPixels pxs).finish .ok) := by
  rw [exec_checked hacc rfl (drawPixels_checked s pxs), stepsOf, State.start_of_legal rfl,
    State.runSteps_drawPixelsSteps]

/-- SET_PIXEL runs the list of DRAW_PIXELS of its one record (R240). -/
theorem exec_setPixel {s : State} (hacc : s.accepting) (x y : Coord) (c : Color) :
    exec (.setPixel x y c) s = .next ((s.drawPixel ⟨x, y, c⟩).finish .ok) := by
  rw [exec_checked hacc rfl (setPixel_checked s x y c), State.start_of_legal rfl]
  exact congrArg _ (State.runSteps_drawPixelsSteps [⟨x, y, c⟩] s _)

/-! ### What else the requests change -/

/-- A request that changed the planes alone and responded. -/
theorem finish_of_planes {s t : State} (hacc : s.accepting) (ht : t = { s with black := t.black, red := t.red }) :
    t.finish .ok = { s with
      black := (t.finish .ok).black, red := (t.finish .ok).red, responses := s.responses ++ [.ok] } := by
  obtain ⟨-, hidle⟩ := hacc
  rw [ht]
  simp [State.finish, hidle]

/-! ### CLEAR -/

theorem decode_clear_badColor (p : Params) {b : Byte} (hb : 3 ≤ b.toNat) (rest : List Byte) :
    decode p (0x10 :: b :: rest) = .error .badColor := by
  have hne (c : Byte) (hc : c.toNat < 3) : b ≠ c := by
    rintro rfl
    omega
  refine (decode_code p .clear (b :: rest)).trans ?_
  simp only [takeRequest, take8, colorOf_unknown (hne 0 (by decide)) (hne 1 (by decide)) (hne 2 (by decide))]

/-- Settles O31: the fill writes every index of the plane, and the colour's code is the operand. -/
theorem clearFillsBothPlanes : Obligations.ClearFillsBothPlanes := by
  unfold Obligations.ClearFillsBothPlanes
  intro s c hacc
  have hread (p : Plane) (i : Nat) := s.readByte_fillPlanes (fillPattern c).1 (fillPattern c).2 p i
  refine ⟨_, exec_clear hacc c, fun i hi => ?_, fun p i hi => ?_, finish_of_planes hacc rfl, fun rest => ?_,
    fun b rest hb => decode_clear_badColor s.params hb rest⟩
  · refine Prod.ext ((hread .black i).trans (if_pos hi)) ((hread .red i).trans (if_pos hi)) |>.trans ?_
    cases c <;> rfl
  · exact (hread p i).trans (if_neg (Nat.not_lt.mpr hi))
  · refine (decode_code s.params .clear (c.code :: rest)).trans ?_
    simp only [takeRequest, take8, colorOf_code]

/-! ### SET_PIXEL and DRAW_PIXELS -/

/-- The seven bits outside the mask are kept (R232). -/
theorem applyColor_outside_mask (c : Color) (m b r : Byte) :
    (applyColor c m b r).1 &&& ~~~m = b &&& ~~~m ∧ (applyColor c m b r).2 &&& ~~~m = r &&& ~~~m := by
  cases c <;> constructor <;> ext j hj <;>
    simp only [applyColor, BitVec.getElem_and, BitVec.getElem_or, BitVec.getElem_not] <;> cases m[j] <;> simp

/-- Under the mask stands the colour's pair (R232). -/
theorem applyColor_under_mask (c : Color) (m b r : Byte) :
    (applyColor c m b r).1 &&& m = (match c with
      | .black => 0
      | .white => m
      | .red => m) ∧
    (applyColor c m b r).2 &&& m = (match c with
      | .black => 0
      | .white => 0
      | .red => m) := by
  cases c <;> constructor <;> ext j hj <;> simp +contextual [applyColor]

theorem State.drawPixel_outside {s : State} {px : Pixel}
    (h : outside s.cfg (coordOf s.params px.x) (coordOf s.params px.y) = true) : s.drawPixel px = s := if_pos h

theorem State.drawPixel_inside {s : State} {px : Pixel}
    (h : outside s.cfg (coordOf s.params px.x) (coordOf s.params px.y) = false) :
    s.drawPixel px =
      s.applyAt (transform s.cfg (coordOf s.params px.x) (coordOf s.params px.y)).1
        (transform s.cfg (coordOf s.params px.x) (coordOf s.params px.y)).2 px.color :=
  if_neg (Bool.eq_false_iff.mp h)

/-- Settles O32: outside the bounds nothing is drawn, inside them the colour is applied at the transformed address. -/
theorem setPixelWritesOneBit : Obligations.SetPixelWritesOneBit := by
  unfold Obligations.SetPixelWritesOneBit
  rintro s x y c X Y hacc rfl rfl
  refine ⟨coordOf_fits, coordOf_fits, _, exec_setPixel hacc x y c, finish_of_planes hacc (s.drawPixel_frame _),
    fun hout => ?_, fun hin => ?_⟩
  · rw [State.drawPixel_outside hout]
    exact ⟨rfl, rfl⟩
  · rw [State.drawPixel_inside hin]
    have hread := s.readByte_applyAt (transform s.cfg (coordOf s.params x) (coordOf s.params y)).1
      (transform s.cfg (coordOf s.params x) (coordOf s.params y)).2 c
    refine ⟨fun p i hi => (hread p i).trans (if_neg hi), fun i m him => ?_⟩
    rw [← him] at hread ⊢
    have hrest := applyColor_outside_mask c m (s.readByte .black i) (s.readByte .red i)
    have hpair := applyColor_under_mask c m (s.readByte .black i) (s.readByte .red i)
    have hwritten (p : Plane) := (hread p i).trans (if_pos rfl)
    refine ⟨fun p => ?_, ?_, ?_⟩
    · refine (congrArg (· &&& ~~~m) (hwritten p)).trans ?_
      cases p
      · exact hrest.1
      · exact hrest.2
    · exact (congrArg (· &&& m) (hwritten .black)).trans hpair.1
    · exact (congrArg (· &&& m) (hwritten .red)).trans hpair.2

/-- Settles O33: the pixels are drawn one after another, and the responses between them change no plane. -/
theorem drawPixelsIsSetPixelInOrder : Obligations.DrawPixelsIsSetPixelInOrder := by
  unfold Obligations.DrawPixelsIsSetPixelInOrder
  intro s px pxs hacc
  refine ⟨(exec_drawPixels hacc []).trans (congrArg _ (finish_of_planes hacc rfl)), _, _, _,
    exec_drawPixels hacc (px :: pxs), exec_setPixel hacc px.x px.y px.color, exec_drawPixels ?_ pxs, ?_⟩
  · exact ⟨(s.drawPixel_fault px).trans hacc.1, rfl⟩
  · refine (finish_of_planes hacc (s.drawPixels_frame (px :: pxs))).trans ?_
    rw [State.drawPixels_finish]
    rfl

/-! ### The plane port -/

/-- Settles O34: the write puts the byte at the index, and the index check is the request's only one. -/
theorem planeWriteWritesOneByte : Obligations.PlaneWriteWritesOneByte := by
  unfold Obligations.PlaneWriteWritesOneByte
  intro s p idx v hacc
  have hread (q : Plane) (i : Nat) := s.readByte_writeByte p q idx.toNat i v
  refine ⟨fun hidx => ⟨_, exec_planeWrite hacc p v hidx, ?_, fun q i hqi => ?_, finish_of_planes hacc ?_⟩,
    fun hidx => exec_faulted hacc rfl ((requestFault_planeWrite s p idx v).trans (planeIndexFault_outside hidx))⟩
  · exact (hread p idx.toNat).trans (if_pos ⟨rfl, rfl⟩)
  · exact (hread q i).trans (if_neg (not_and_or.mpr hqi))
  · cases p <;> rfl

/-- Settles O35: PLANE_READ is its last step alone, after the index check. -/
theorem planeReadReturnsTheByte : Obligations.PlaneReadReturnsTheByte := by
  unfold Obligations.PlaneReadReturnsTheByte
  intro s p idx hacc
  have hchk := requestFault_planeRead s p idx
  refine ⟨fun hidx => ?_, fun hidx => exec_faulted hacc rfl (hchk.trans (planeIndexFault_outside hidx))⟩
  have hidle := hacc.2
  rw [exec_checked hacc rfl (hchk.trans (planeIndexFault_inside hidx)), State.start_of_legal rfl]
  refine congrArg _ (?_ : s.finishRead p idx.toNat = _)
  simp [State.finishRead, State.finish, hidle]

end Sys2Proof.Machine
end

section
/-! PROOFS. The rotation transform (spec/42_framebuffer.md R233 to R239): each rotation turns the logical coordinates
onto the native grid, one to one, and every rotation then picks the plane bit of a native column and row in the same
way. -/

namespace Sys2Proof.Machine

open Sys2Proof.Claims

/-! ### The masks -/

/-- The masks from the right are the masks from the left, counted back. -/
theorem maskFromRight_eq {k : Nat} (h : k < 8) : maskFromRight k = maskFromLeft (7 - k) := by
  interval_cases k <;> rfl

theorem maskFromLeft_inj {j k : Nat} (hj : j < 8) (hk : k < 8) (h : maskFromLeft j = maskFromLeft k) : j = k := by
  have hall : ∀ a b : Fin 8, maskFromLeft a = maskFromLeft b → a = b := by decide
  exact congrArg Fin.val (hall ⟨j, hj⟩ ⟨k, hk⟩ h)

/-! ### The native grid -/

/-- The plane bit of native column `u` of native row `v`: a row is `cols div 8` bytes, its first column the highest bit
of the first of them (R234). -/
def nativeBit (cfg : Cfg) (u v : Nat) : Nat × Byte := (u / 8 + cfg.width / 8 * v, maskFromLeft (u % 8))

theorem nativeBit_inj {cfg : Cfg} (h : nativeGrid cfg) {u v u' v' : Nat} (hu : u < cfg.width) (hu' : u' < cfg.width)
    (heq : nativeBit cfg u v = nativeBit cfg u' v') : u = u' ∧ v = v' := by
  obtain ⟨hmod, hcols, -⟩ := h
  have hw : cfg.width % 8 = 0 := hmod
  have hbytes : 0 < cfg.width / 8 := Nat.div_pos hcols (by decide)
  simp only [nativeBit, Prod.mk.injEq] at heq
  obtain ⟨hindex, hmask⟩ := heq
  have hbit : u % 8 = u' % 8 := maskFromLeft_inj (by omega) (by omega) hmask
  obtain ⟨hv, hbyte⟩ := (Nat.div_mod_unique hbytes).mpr ⟨hindex, by omega⟩
  obtain ⟨hv', hbyte'⟩ := (Nat.div_mod_unique hbytes).mpr ⟨rfl, (by omega : u' / 8 < cfg.width / 8)⟩
  exact ⟨by omega, hv.symm.trans hv'⟩

theorem nativeBit_surj {cfg : Cfg} (h : nativeGrid cfg) {i k : Nat} (hi : i < cfg.planeLen) (hk : k < 8) :
    ∃ u v, u < cfg.width ∧ v < cfg.height ∧ nativeBit cfg u v = (i, maskFromLeft k) := by
  rw [planeLen_of_nativeGrid h] at hi
  obtain ⟨hmod, hcols, -⟩ := h
  have hw : cfg.width % 8 = 0 := hmod
  have hbytes : 0 < cfg.width / 8 := Nat.div_pos hcols (by decide)
  have hcol := Nat.mod_lt i hbytes
  refine ⟨8 * (i % (cfg.width / 8)) + k, i / (cfg.width / 8), by omega,
    Nat.div_lt_of_lt_mul (Nat.mul_comm .. ▸ hi), ?_⟩
  rw [nativeBit, Nat.mul_add_div (by decide), Nat.mul_add_mod, Nat.div_eq_of_lt hk, Nat.mod_eq_of_lt hk, Nat.add_zero,
    Nat.mod_add_div]

/-! ### The turn -/

/-- The native column and row of a logical pixel (R234 to R237). -/
def turn (cfg : Cfg) (x y : Nat) : Nat × Nat :=
  match cfg.rotation with
  | .rot0 => (x, y)
  | .rot90 => (cfg.width - 1 - y, x)
  | .rot180 => (cfg.width - 1 - x, cfg.height - 1 - y)
  | .rot270 => (y, cfg.height - 1 - x)

/-- The logical pixel of a native column and row. -/
def unturn (cfg : Cfg) (u v : Nat) : Nat × Nat :=
  match cfg.rotation with
  | .rot0 => (u, v)
  | .rot90 => (v, cfg.width - 1 - u)
  | .rot180 => (cfg.width - 1 - u, cfg.height - 1 - v)
  | .rot270 => (cfg.height - 1 - v, u)

/-- The bounds of R238: the width bounds the coordinate along the native rows. -/
theorem inside_iff {cfg : Cfg} {x y : Nat} : outside cfg x y = false ↔
    match cfg.rotation with
    | .rot0 | .rot180 => x < cfg.width ∧ y < cfg.height
    | .rot90 | .rot270 => y < cfg.width ∧ x < cfg.height := by
  unfold outside
  cases cfg.rotation <;> simp

theorem turn_lt {cfg : Cfg} {x y : Nat} (hin : outside cfg x y = false) :
    (turn cfg x y).1 < cfg.width ∧ (turn cfg x y).2 < cfg.height := by
  rw [inside_iff] at hin
  unfold turn
  cases hr : cfg.rotation <;> simp only [hr] at hin ⊢ <;> omega

theorem unturn_turn {cfg : Cfg} {x y : Nat} (hin : outside cfg x y = false) :
    unturn cfg (turn cfg x y).1 (turn cfg x y).2 = (x, y) := by
  rw [inside_iff] at hin
  unfold unturn turn
  cases hr : cfg.rotation <;> simp only [hr, Prod.mk.injEq, true_and, and_true] at hin ⊢ <;> omega

theorem unturn_inside {cfg : Cfg} {u v : Nat} (hu : u < cfg.width) (hv : v < cfg.height) :
    outside cfg (unturn cfg u v).1 (unturn cfg u v).2 = false := by
  rw [inside_iff]
  unfold unturn
  cases hr : cfg.rotation <;> simp only <;> omega

theorem turn_unturn {cfg : Cfg} {u v : Nat} (hu : u < cfg.width) (hv : v < cfg.height) :
    turn cfg (unturn cfg u v).1 (unturn cfg u v).2 = (u, v) := by
  unfold unturn turn
  cases hr : cfg.rotation <;> simp only [Prod.mk.injEq, true_and, and_true] <;> omega

/-! ### The transform -/

/-- A column counted from the right end of a row of whole bytes: its byte and its bit are counted back too. -/
theorem mirrored_column {w x : Nat} (hw : w % 8 = 0) (hx : x < w) :
    (w - 1 - x) / 8 = w / 8 - 1 - x / 8 ∧ (w - 1 - x) % 8 = 7 - x % 8 := by
  omega

/-- A byte counted from the end of the plane: its row and its place in the row are counted back. -/
theorem mirrored_byte {bytes rows a b : Nat} (ha : a < bytes) (hb : b < rows) :
    bytes * rows - 1 - (a + bytes * b) = (bytes - 1 - a) + bytes * (rows - 1 - b) := by
  obtain ⟨c, rfl⟩ := Nat.exists_eq_add_of_lt hb
  have hrows : bytes * (b + c + 1) = bytes * b + bytes * c + bytes := by ring
  rw [hrows, show b + c + 1 - 1 - b = c by omega]
  omega

/-- The rules R234 to R237 are one rule on the turned coordinates. -/
theorem transform_eq_nativeBit {cfg : Cfg} (h : nativeGrid cfg) {x y : Nat} (hin : outside cfg x y = false) :
    transform cfg x y = nativeBit cfg (turn cfg x y).1 (turn cfg x y).2 := by
  have hw : cfg.width % 8 = 0 := h.1
  have hmask (z : Nat) : maskFromRight (z % 8) = maskFromLeft (7 - z % 8) := maskFromRight_eq (Nat.mod_lt _ (by decide))
  rw [inside_iff] at hin
  unfold transform turn nativeBit
  cases hr : cfg.rotation <;> simp only [hr] at hin ⊢ <;> obtain ⟨hcol, hrow⟩ := hin
  case rot90 => rw [hmask, (mirrored_column hw hcol).2]
  case rot180 =>
    obtain ⟨hbyte, hbit⟩ := mirrored_column hw hcol
    rw [hmask, hbyte, hbit, mirrored_byte (by omega) hrow]
  case rot270 => rw [Nat.mul_comm]

/-- Settles O36: the turn is one to one onto the native grid, and the native grid one to one onto the plane's bits. -/
theorem transformIsABijection : Obligations.TransformIsABijection := by
  unfold Obligations.TransformIsABijection
  intro cfg h
  refine ⟨fun x y hin => ⟨transform_index_lt h hin, ?_⟩, fun x y x' y' hin hin' heq => ?_, fun i k hi hk => ?_⟩
  · rw [transform_eq_nativeBit h hin]
    exact ⟨_, Nat.mod_lt _ (by decide), rfl⟩
  · rw [transform_eq_nativeBit h hin, transform_eq_nativeBit h hin'] at heq
    have hturn := Prod.ext_iff.mpr (nativeBit_inj h (turn_lt hin).1 (turn_lt hin').1 heq)
    have hpixel := unturn_turn hin
    rw [hturn, unturn_turn hin'] at hpixel
    exact ⟨(congrArg Prod.fst hpixel).symm, (congrArg Prod.snd hpixel).symm⟩
  · obtain ⟨u, v, hu, hv, hbit⟩ := nativeBit_surj h hi hk
    refine ⟨_, _, unturn_inside hu hv, ?_⟩
    rw [transform_eq_nativeBit h (unturn_inside hu hv), turn_unturn hu hv]
    exact hbit

end Sys2Proof.Machine
end

section
/-! PROOFS. The builder's first two checks (spec/43_configuration.md R271 to R273): only a dimensions option sets the
dimensions, so the last one given decides ConfigError and the geometry fault. -/

namespace Sys2Proof.Machine

/-! ### The dimensions gathered -/

@[simp] theorem Draft.add_dimensions_dims (d : Draft) (rows cols : Half) :
    (d.add (.dimensions rows cols)).dims = some (rows, cols) := rfl

theorem Draft.add_dims_of_ne {d : Draft} {o : BuildOption} (h : ∀ rows cols, o ≠ .dimensions rows cols) :
    (d.add o).dims = d.dims := by
  cases o with
  | dimensions rows cols => exact absurd rfl (h rows cols)
  | rotation _ | dummyLinePeriod _ | gateLineWidth _ | vcom _ | lut _ | dataEntryMode _ _ => rfl

theorem Draft.foldl_add_dims_of_notMem {options : List BuildOption}
    (h : ∀ rows cols, BuildOption.dimensions rows cols ∉ options) (d : Draft) :
    (options.foldl Draft.add d).dims = d.dims := by
  induction options generalizing d with
  | nil => rfl
  | cons o options ih =>
    have hne : ∀ rows cols, o ≠ .dimensions rows cols := fun rows cols heq => h rows cols (heq ▸ List.mem_cons_self)
    have hrest : ∀ rows cols, BuildOption.dimensions rows cols ∉ options :=
      fun rows cols hmem => h rows cols (List.mem_cons_of_mem o hmem)
    exact (ih hrest (d.add o)).trans (Draft.add_dims_of_ne hne)

/-- The last dimensions given are the ones gathered (R270, D44). -/
theorem Draft.foldl_add_dims_of_last (before : List BuildOption) {later : List BuildOption} {rows cols : Half}
    (h : ∀ r c, BuildOption.dimensions r c ∉ later) (d : Draft) :
    ((before ++ .dimensions rows cols :: later).foldl Draft.add d).dims = some (rows, cols) := by
  rw [List.foldl_append, List.foldl_cons, Draft.foldl_add_dims_of_notMem h, Draft.add_dimensions_dims]

/-! ### The checks -/

theorem geometryOk_iff {p : Params} {rows cols : Half} : geometryOk p rows cols = true ↔
    cols.toNat % 8 = 0 ∧ rows.toNat ≤ p.maxGateOutputs ∧ cols.toNat ≤ p.maxSourceOutputs ∧
      1 ≤ rows.toNat ∧ 8 ≤ cols.toNat := by
  simp only [geometryOk, Bool.and_eq_true, decide_eq_true_eq, and_assoc]

theorem build_of_dims_none (p : Params) {options : List BuildOption}
    (h : (options.foldl Draft.add Draft.empty).dims = none) : build p options = .configError := by
  simp only [build, h]

theorem build_of_geometry_not_ok {p : Params} {options : List BuildOption} {rows cols : Half}
    (h : (options.foldl Draft.add Draft.empty).dims = some (rows, cols)) (hbad : ¬ geometryOk p rows cols = true) :
    build p options = .fault { code := .geometryInvalid, info := .geometry rows cols } := by
  simp only [build, h, hbad, Bool.not_false, if_true]

/-- Settles O38: without a dimensions option the dimensions stay those of the empty draft, which has none. -/
theorem buildNeedsDimensions : Obligations.BuildNeedsDimensions := by
  unfold Obligations.BuildNeedsDimensions
  exact fun p _ h => build_of_dims_none p (Draft.foldl_add_dims_of_notMem h Draft.empty)

/-- Settles O39: the geometry checked is that of the last dimensions option, and its check comes first. -/
theorem buildChecksTheGeometryFirst : Obligations.BuildChecksTheGeometryFirst := by
  unfold Obligations.BuildChecksTheGeometryFirst
  intro p before later rows cols hlast hbad
  have hdims := Draft.foldl_add_dims_of_last before (rows := rows) (cols := cols) hlast Draft.empty
  exact build_of_geometry_not_ok hdims (mt geometryOk_iff.mp hbad)

end Sys2Proof.Machine
end

section
/-! PROOFS. The fault latch (spec/60_exceptions.md R295, R296): a halted block answers its record and nothing else, and
an accepted request sets the latch only by failing one of its checks, before its first step. -/

namespace Sys2Proof.Machine

open Sys2Proof.Claims

variable {s t : State} {f : FaultRecord} {i : Instr}

/-! ### A halted block -/

theorem step_halted (h : s.fault = some f) : step s = .fault (.halted f) := by
  simp only [step, h]

theorem runRequest_halted (h : s.fault = some f) (i : Instr) : runRequest i s = .fault (.halted f) := by
  simp only [runRequest, h]

theorem runWire_halted (h : s.fault = some f) (c : WireCmd) : runWire c s = .fault (.halted f) := by
  simp only [runWire, h]

theorem exec_halted (h : s.fault = some f) (i : Instr) : exec i s = .fault (.halted f) := by
  rcases exec_eq_runRequest_or_runWire i with hi | ⟨c, hi⟩
  · rw [hi, runRequest_halted h]
  · rw [hi, runWire_halted h]

/-- Settles O8: the step, and the meaning of either level, read the latch first. -/
theorem haltedBlockAcceptsNothing : Obligations.HaltedBlockAcceptsNothing := by
  unfold Obligations.HaltedBlockAcceptsNothing
  exact fun s f h => ⟨step_halted h, exec_halted h⟩

/-! ### A request that faults -/

/-- However far a checked request has come, its steps have not touched the latch. -/
theorem Stage.fault {mis : Bool} (h : Stage i mis s t) : t.fault = s.fault := by
  cases h with
  | running k hp hk hchk h => exact h.fault
  | failed e h => exact h.fault
  | completed h => exact h.fault

/-- A request that sets the latch of an unhalted block failed a check, and was not started. -/
theorem State.perform_of_fault_ne_none (hf : s.fault = none) (hreq : i.isRequest = true)
    (h : (s.perform i).fault ≠ none) : ∃ f, s.perform i = s.raiseFault f := by
  cases hchk : requestFault s i with
  | some f => exact ⟨f, State.perform_of_fault hchk⟩
  | none => exact absurd ((State.perform_stage hreq hchk).fault.trans hf) h

/-- An idle block that takes a fault changes in the latch alone. -/
theorem State.raiseFault_of_idle (hp : s.pos = .idle) (f : FaultRecord) :
    s.raiseFault f = { s with fault := some f } := by
  rw [State.raiseFault, ← hp]

/-- Settles O45: the request failed a check, so the next state is the idle block with its latch set, which halts. -/
theorem faultingRequestChangesOnlyTheLatch : Obligations.FaultingRequestChangesOnlyTheLatch := by
  unfold Obligations.FaultingRequestChangesOnlyTheLatch
  intro s t i hacc hreq hexec hfault
  rw [exec_request hreq] at hexec
  obtain ⟨⟨hf, hp⟩, rfl⟩ := runRequest_next hexec
  obtain ⟨f, hraise⟩ := State.perform_of_fault_ne_none hf hreq hfault
  rw [hraise]
  exact ⟨State.raiseFault_of_idle hp f, rfl, step_halted rfl⟩

end Sys2Proof.Machine
end

section
/-! PROOFS. Power-on (spec/70_reset_and_hazards.md R330), and what changes the planes apart from what changes the trace
(spec/42_framebuffer.md R243): no step of a request's list does both, so the list says what its request
can change. -/

namespace Sys2Proof.Machine

open Sys2Proof.Claims

/-! ### Power-on -/

/-- Settles O41: every value is written out in `State.powerOn`, and the build of dimensions(3, 8) is evaluated. -/
theorem powerOnState : Obligations.PowerOnState := by
  unfold Obligations.PowerOnState
  exact ⟨rfl, rfl, rfl, rfl, rfl, rfl, rfl, rfl, rfl, rfl, by decide, rfl⟩

/-- Settles O42: the reset configuration is legal, and every block powered on with a legal one meets the invariant. -/
theorem powerOnMeetsTheInvariant : Obligations.PowerOnMeetsTheInvariant := by
  unfold Obligations.PowerOnMeetsTheInvariant
  exact powerOn_inv (by decide)

/-! ### A property that an accepted request keeps -/

section Perform

variable {P : State → Prop} {s : State} {i : Instr}

/-- What the misuse test, the fault of a failed check and every step of a checked request keep, the request keeps. -/
theorem State.perform_keeps (hpos : ∀ (u : State) (p : Pos), P u → P { u with pos := p })
    (hfault : ∀ f, P (s.raiseFault f)) (hstart : P (s.start i))
    (hm : requestFault s i = none → ∀ m ∈ stepsOf s i, ∀ u, P u → P (u.doMicro m).state) : P (s.perform i) := by
  cases hchk : requestFault s i with
  | some f =>
    rw [State.perform_of_fault hchk]
    exact hfault f
  | none =>
    rw [State.perform_of_checked hchk]
    exact State.runSteps_keeps hpos (hm hchk) hstart

end Perform

/-! ### The planes -/

/-- The requests that may change the planes (spec/10_state.md R39, R331). -/
def writesPlanes : Instr → Bool
  | .clear _ | .setPixel _ _ _ | .drawPixels _ | .planeWrite _ _ _ => true
  | _ => false

/-- Both planes of `t` are those of `s`. -/
def SamePlanes (s t : State) : Prop := t.black = s.black ∧ t.red = s.red

theorem encodeAndSend_samePlanes (c : WireCmd) (s : State) : SamePlanes s (s.encodeAndSend c).state := by
  obtain ⟨-, hblack, hred, -⟩ := encodeAndSend_untouched c s
  exact ⟨hblack, hred⟩

/-- The three kinds of step that write the planes belong to the four requests alone. -/
theorem doMicro_samePlanes {cfg : Cfg} {req : Instr} (hreq : writesPlanes req = false) {m : Micro}
    (hb : m.belongs cfg req) (s : State) : SamePlanes s (s.doMicro m).state := by
  cases m with
  | send c => exact encodeAndSend_samePlanes c s
  | sendIf c =>
    cases c with
    | none => exact ⟨rfl, rfl⟩
    | some c => exact encodeAndSend_samePlanes c s
  | waitBusy =>
    show SamePlanes s s.emitWaitBusy.state
    cases hl : s.busyLevel s.pollCount
    · rw [State.emitWaitBusy_clear hl]
      exact ⟨rfl, rfl⟩
    · rw [State.emitWaitBusy_busy hl]
      exact ⟨rfl, rfl⟩
  | fill fb fr =>
    obtain ⟨c, rfl⟩ := hb
    cases hreq
  | pixel px => rcases hb with ⟨x, y, c, rfl⟩ | ⟨pxs, rfl⟩ <;> cases hreq
  | writeByte p idx v =>
    obtain ⟨-, idx, -, rfl⟩ := hb
    cases hreq
  | resetPulse | delay _ | setSeq _ | finish | finishExec | finishReset | finishUpdate _ _ | finishSleep
  | finishStatus | finishRead _ _ => exact ⟨rfl, rfl⟩

theorem perform_samePlanes (s : State) {i : Instr} (hi : writesPlanes i = false) : SamePlanes s (s.perform i) := by
  refine State.perform_keeps (P := SamePlanes s) (fun u p h => h) (fun f => ⟨rfl, rfl⟩) ⟨rfl, rfl⟩ ?_
  intro hchk m hm u hu
  obtain ⟨hblack, hred⟩ := doMicro_samePlanes hi (belongs_of_mem hchk m hm) u
  exact ⟨hblack.trans hu.1, hred.trans hu.2⟩

theorem exec_samePlanes {s t : State} {i : Instr} (h : exec i s = .next t) (hi : writesPlanes i = false) :
    SamePlanes s t := by
  rcases exec_eq_runRequest_or_runWire i with hexec | ⟨c, hexec⟩ <;> rw [hexec] at h
  · obtain ⟨-, rfl⟩ := runRequest_next h
    exact perform_samePlanes s hi
  · unfold runWire at h
    split at h <;> cases h
    exact encodeAndSend_samePlanes c s

/-! ### The trace -/

/-- `t` looks like `s` in the trace, the status and the controller. -/
structure Unseen (s t : State) : Prop where
  trace : t.trace = s.trace
  seq : t.seq = s.seq
  lastErr : t.lastErr = s.lastErr
  misuse : t.misuse = s.misuse
  ctrl : t.ctrl = s.ctrl

theorem Unseen.trans {s t u : State} (h : Unseen s t) (h' : Unseen t u) : Unseen s u :=
  ⟨h'.trace.trans h.trace, h'.seq.trans h.seq, h'.lastErr.trans h.lastErr, h'.misuse.trans h.misuse,
    h'.ctrl.trans h.ctrl⟩

/-- The steps that write the planes or respond, and do nothing else. -/
def Micro.silent : Micro → Bool
  | .fill _ _ | .pixel _ | .writeByte _ _ _ | .finish | .finishStatus | .finishRead _ _ => true
  | _ => false

theorem doMicro_unseen {m : Micro} (hm : m.silent = true) (s : State) : Unseen s (s.doMicro m).state := by
  cases m with
  | pixel px =>
    show Unseen s (s.drawPixel px)
    rw [State.drawPixel_frame]
    exact ⟨rfl, rfl, rfl, rfl, rfl⟩
  | writeByte p idx v => cases p <;> exact ⟨rfl, rfl, rfl, rfl, rfl⟩
  | fill _ _ | finish | finishStatus | finishRead _ _ => exact ⟨rfl, rfl, rfl, rfl, rfl⟩
  | _ => cases hm

/-- The requests whose whole list is silent. -/
def sendsNothing : Instr → Bool
  | .clear _ | .setPixel _ _ _ | .drawPixels _ | .planeWrite _ _ _ | .planeRead _ _ | .status => true
  | _ => false

theorem stepsOf_silent {i : Instr} (hi : sendsNothing i = true) (s : State) : ∀ m ∈ stepsOf s i, m.silent = true := by
  cases i with
  | clear _ | setPixel _ _ _ | planeWrite _ _ _ =>
    exact List.forall_mem_cons.mpr ⟨rfl, List.forall_mem_singleton.mpr rfl⟩
  | planeRead _ _ | status => exact List.forall_mem_singleton.mpr rfl
  | drawPixels pxs =>
    exact List.forall_mem_append.mpr ⟨List.forall_mem_map.mpr fun px _ => rfl, List.forall_mem_singleton.mpr rfl⟩
  | _ => cases hi

theorem sendsNothing_request {i : Instr} (hi : sendsNothing i = true) :
    i.isRequest = true ∧ ∀ q, legalIn i q = true := by
  cases i with
  | clear _ | setPixel _ _ _ | drawPixels _ | planeWrite _ _ _ | planeRead _ _ | status => exact ⟨rfl, fun _ => rfl⟩
  | _ => cases hi

/-- A request whose steps are all silent is legal in every state, so nothing of it is seen. -/
theorem perform_unseen (s : State) {i : Instr} (hi : sendsNothing i = true) : Unseen s (s.perform i) := by
  refine State.perform_keeps (P := Unseen s) (fun u p h => h.trans ⟨rfl, rfl, rfl, rfl, rfl⟩)
    (fun f => ⟨rfl, rfl, rfl, rfl, rfl⟩) ?_
    (fun _ m hm u hu => hu.trans (doMicro_unseen (stepsOf_silent hi s m hm) u))
  rw [State.start_of_legal ((sendsNothing_request hi).2 s.seq)]
  exact ⟨rfl, rfl, rfl, rfl, rfl⟩

theorem exec_unseen {s t : State} {i : Instr} (h : exec i s = .next t) (hi : sendsNothing i = true) :
    t.trace = s.trace ∧ t.seq = s.seq ∧ t.lastErr = s.lastErr ∧ t.misuse = s.misuse ∧ t.ctrl = s.ctrl := by
  rw [exec_request (sendsNothing_request hi).1] at h
  obtain ⟨-, rfl⟩ := runRequest_next h
  obtain ⟨htrace, hseq, herr, hmisuse, hctrl⟩ := perform_unseen s hi
  exact ⟨htrace, hseq, herr, hmisuse, hctrl⟩

/-- Settles O46: what writes the planes is in the lists of four requests alone, and these lists, and those of
PLANE_READ and STATUS, hold silent steps only. -/
theorem planesAndTraceAreSeparate : Obligations.PlanesAndTraceAreSeparate := by
  unfold Obligations.PlanesAndTraceAreSeparate
  intro s t i h
  refine ⟨fun hclear hpixel hpixels hwrite => exec_samePlanes h ?_, ?_⟩
  · cases i with
    | clear c => exact absurd rfl (hclear c)
    | setPixel x y c => exact absurd rfl (hpixel x y c)
    | drawPixels pxs => exact absurd rfl (hpixels pxs)
    | planeWrite p idx v => exact absurd rfl (hwrite p idx v)
    | _ => rfl
  · cases i with
    | clear _ | setPixel _ _ _ | drawPixels _ | planeWrite _ _ _ | planeRead _ _ | status => exact exec_unseen h rfl
    | _ => trivial

end Sys2Proof.Machine
end

section
/-! PROOFS. Every request ends under the fairness assumption (spec/70_reset_and_hazards.md R343, spec/60_exceptions.md
R299): each step but the busy-wait moves the request on or ends it, and the one busy-wait of its list moves on at the
first poll that sees busy clear. -/

namespace Sys2Proof.Machine

open Sys2Proof.Claims

theorem stepN_succ_next {s t : State} {n : Nat} (h : stepN (n + 1) s = .next t) :
    ∃ u, step s = .next u ∧ stepN n u = .next t := by
  cases hs : step s with
  | next u => exact ⟨u, rfl, by rwa [stepN_succ hs] at h⟩
  | fault f => simp [stepN, hs] at h
  | refused r => simp [stepN, hs] at h

theorem State.Inv.steps {s t : State} {n : Nat} (hinv : s.Inv) (h : stepN n s = .next t) : t.Inv := by
  induction n generalizing s with
  | zero =>
    cases h
    exact hinv
  | succ n ih =>
    obtain ⟨u, hstep, hrest⟩ := stepN_succ_next h
    exact ih (stepKeepsTheInvariant s u hinv hstep) hrest

/-! ### A request that ends with one response -/

/-- Some number of steps ends the request, IDLE, with no fault and one response after the responses `before`. -/
def State.EndsAnswered (before : List Response) (s : State) : Prop :=
  ∃ n t r, stepN n s = .next t ∧ t.pos = .idle ∧ t.fault = none ∧ t.responses = before ++ [r]

section EndsAnswered

variable {s t : State} {before : List Response}

theorem State.EndsAnswered.of_stepN {n : Nat} (hn : stepN n s = .next t) (h : t.EndsAnswered before) :
    s.EndsAnswered before := by
  obtain ⟨m, u, r, hm, hend⟩ := h
  exact ⟨n + m, u, r, stepN_add hn hm, hend⟩

/-- A single step on the way to the end leaves the rest of the way. -/
theorem State.EndsAnswered.tick (h : s.EndsAnswered before) : s.tick.EndsAnswered before := by
  cases hp : s.pos with
  | idle => rwa [State.tick_idle hp]
  | running req mis k =>
    obtain ⟨n, t, r, hn, hidle, hend⟩ := h
    cases n with
    | zero =>
      cases hn
      cases hp.symm.trans hidle
    | succ n =>
      obtain ⟨u, hstep, hrest⟩ := stepN_succ_next hn
      rw [step_running (step_next_cases hstep).1 hp] at hstep
      cases hstep
      exact ⟨n, t, r, hrest, hidle, hend⟩

theorem State.EndsAnswered.ticks (h : s.EndsAnswered before) (n : Nat) :
    (State.tick^[n] s).EndsAnswered before := by
  induction n generalizing s with
  | zero => exact h
  | succ n ih => exact ih h.tick

end EndsAnswered

/-! ### One step of the list -/

/-- `t` stands one step further than `s`, in the same list, with no response and no fault. -/
structure MovedOn (req : Instr) (mis : Bool) (k : Nat) (s t : State) : Prop where
  pos : t.pos = .running req mis (k + 1)
  steps : stepsOf t req = stepsOf s req
  fault : t.fault = none
  responses : t.responses = s.responses

section Progress

variable {s : State} {req : Instr} {mis : Bool} {k : Nat} (hf : s.fault = none) (hp : s.pos = .running req mis k)
include hf hp

/-- Every step but a busy-wait moves the request on without a poll, or ends it with one response. -/
theorem step_of_not_waitBusy (hinv : s.Inv) {m : Micro} (hm : (stepsOf s req)[k]? = some m) (hw : m ≠ .waitBusy) :
    (∃ t, step s = .next t ∧ MovedOn req mis k s t ∧ t.pollCount = s.pollCount ∧ t.busyPlan = s.busyPlan) ∨
      s.EndsAnswered s.responses := by
  obtain ⟨-, hchk, -⟩ := hinv.position_running hp
  have hadv := doMicro_advances (mis := mis) hchk (List.mem_of_getElem? hm) (by rw [hp]; rfl)
  have hstep := step_running hf hp
  rw [State.tick_running hp hm] at hstep
  rcases doMicro_polls hw s with ⟨u, hu, hpolls, hplan⟩ | ⟨u, hu, hidle⟩ <;> rw [hu] at hadv hstep
  · obtain ⟨hpos, hsteps⟩ := doMicro_go_next hchk hp hm hu
    exact .inl ⟨_, hstep, ⟨hpos, hsteps, hadv.fault.trans hf, hadv.responses⟩, hpolls, hplan⟩
  · have hone : stepN 1 s = .next u := stepN_succ hstep 0
    rcases hadv with ⟨e, h⟩ | h
    · exact .inr ⟨1, u, _, hone, hidle, h.fault.trans hf, h.responses⟩
    · obtain ⟨r, -, hr⟩ := h.responses
      exact .inr ⟨1, u, r, hone, hidle, h.fault.trans hf, hr⟩

/-- A busy-wait moves on at the first poll that sees busy clear. -/
theorem stepN_of_waitBusy (hm : (stepsOf s req)[k]? = some .waitBusy) (hfair : s.busyFair) :
    ∃ n t, stepN n s = .next t ∧ MovedOn req mis k s t := by
  have hbusy (j : Nat) (hj : j < Nat.find hfair) : s.busyLevel (s.pollCount + j) = true :=
    Bool.eq_true_of_not_eq_false (Nat.find_min hfair hj)
  refine ⟨_, _, stepN_polledClear hf hp hm hbusy (Nat.find_spec hfair), rfl, ?_, hf, rfl⟩
  refine (stepsOf_congr ?_ ?_ ?_ ?_ req).1 <;> rfl

end Progress

/-! ### The whole list -/

theorem State.busyFair_congr {s t : State} (hcount : t.pollCount = s.pollCount) (hplan : t.busyPlan = s.busyPlan)
    (h : s.busyFair) : t.busyFair := by
  obtain ⟨n, hn⟩ := h
  exact ⟨n, by rw [hcount, State.busyLevel_congr hplan, hn]⟩

/-- A request in progress ends when no busy-wait is left in its list, or the one that is left is fair. -/
theorem State.Inv.endsAnswered {ms : List Micro} {s : State} {req : Instr} {mis : Bool} {k : Nat} (hinv : s.Inv)
    (hf : s.fault = none) (hp : s.pos = .running req mis k) (hms : (stepsOf s req).drop k = ms)
    (hwait : .waitBusy ∉ ms ∨ s.busyFair) : s.EndsAnswered s.responses := by
  induction ms generalizing s k with
  | nil =>
    obtain ⟨hk, -, -⟩ := hinv.position_running hp
    exact absurd (List.drop_eq_nil_iff.mp hms) (Nat.not_le.mpr hk)
  | cons m ms ih =>
    have hm : (stepsOf s req)[k]? = some m := by
      rw [← Nat.add_zero k, ← List.getElem?_drop, hms]
      rfl
    have hrest : (stepsOf s req).drop (k + 1) = ms := by
      rw [← List.tail_drop, hms]
      rfl
    have next {n : Nat} {t : State} (hn : stepN n s = .next t) (h : MovedOn req mis k s t)
        (hwait : .waitBusy ∉ ms ∨ t.busyFair) : s.EndsAnswered s.responses := by
      have hend := ih (hinv.steps hn) h.fault h.pos (h.steps ▸ hrest) hwait
      rw [h.responses] at hend
      exact hend.of_stepN hn
    by_cases hw : m = .waitBusy
    · subst hw
      obtain ⟨n, t, hn, hmoved⟩ := stepN_of_waitBusy hf hp hm (hwait.resolve_left (by simp))
      exact next hn hmoved (.inl (hrest ▸ waitBusy_once hm))
    · rcases step_of_not_waitBusy hf hp hinv hm hw with ⟨t, hstep, hmoved, hcount, hplan⟩ | hend
      · exact next (stepN_succ hstep 0) hmoved
          (hwait.imp (fun h hmem => h (List.mem_cons_of_mem m hmem)) (State.busyFair_congr hcount hplan))
      · exact hend

/-- Settles O30: a request in progress goes through its list, and an accepted one has come some way from its start. -/
theorem requestsEndUnderFairness : Obligations.RequestsEndUnderFairness := by
  unfold Obligations.RequestsEndUnderFairness
  refine ⟨fun s req mis k hinv hf hp hfair => hinv.endsAnswered hf hp rfl (.inr hfair), ?_⟩
  intro s i hinv hacc hreq hchk hfair
  have hstart : (s.start i).EndsAnswered s.responses :=
    (hinv.start hacc hreq hchk).endsAnswered hacc.1 (State.start_pos s i) rfl (.inr hfair)
  obtain ⟨n, hticks, -⟩ := State.perform_eq_ticks hchk
  have hend := hstart.ticks n
  rw [hticks] at hend
  obtain ⟨m, t, r, hrest⟩ := hend
  exact ⟨m, s.perform i, t, r, exec_accepting hacc hreq, hrest⟩

end Sys2Proof.Machine
end
